-- ==== Sys2Proof/Word.lean ====
section
/-! DEFINITION. The bit-vector types of the engine (spec/00_scope.md R14): bytes, the 32-bit words of the
port and of SHA-256, the 64-bit words of SHA-512, and the 12-bit byte addresses of the register window. -/

namespace Sys2Proof

/-- A byte (R14). -/
abbrev Byte := BitVec 8

/-- A 32-bit word: the port's data width (R50), a command word (R75), a SHA-256 word (R95). -/
abbrev Word := BitVec 32

/-- A 64-bit word of SHA-512 (R126). -/
abbrev DWord := BitVec 64

/-- A byte address inside the 4096-byte register window (R50). -/
abbrev Addr := BitVec 12

end Sys2Proof
end

