-- ==== Sys2Proof/Config.lean ====
section
/-! DEFINITION. What never changes and no transaction writes (spec/10_state.md R39): the parameters of
spec/00_scope.md R7 to R11 and the two identification constants. The spec leaves no value open
(spec/93_implementation_defined.md), so there is no free value here. -/

namespace Sys2Proof.Config

/-- `NSET`: the supported entropy lengths in bytes (R7). -/
def nset : List Nat := [16, 20, 24, 28, 32]

/-- Width of one word index, the `GROUP` of R11. -/
def groupBits : Nat := 11

/-- `INDEX_MAX` (R11). -/
def indexMax : Nat := 2047

/-- `ITER`: the number of PBKDF2 iterations (R9). -/
def iter : Nat := 2048

/-- `DKLEN`: the length of the seed in bytes (R9). -/
def dkLen : Nat := 64

/-- `SALT_PREFIX`: the ASCII bytes of the literal "mnemonic" (R9). -/
def saltPrefix : List Byte := [0x6D, 0x6E, 0x65, 0x6D, 0x6F, 0x6E, 0x69, 0x63]

/-- `ENT_BYTES`: the number of entropy byte registers (R11). -/
def entBytes : Nat := 32

/-- `MN_MAX`: the bytes of the mnemonic buffer. DESIGN CHOICE (log entry 5), safe for the engine of R10: the spec's
default; other sizes that R10 allows are not modelled. -/
def mnMax : Nat := 1024

/-- `PP_MAX`: the bytes of the passphrase buffer. DESIGN CHOICE (log entry 5), safe for the engine of R10. -/
def ppMax : Nat := 1024

/-- The constant of register `ID` (R40). -/
def idWord : Word := 0x50425331

end Sys2Proof.Config
end

