-- ==== Sys2Proof/Machine/Bits.lean ====
section
/-! DEFINITION. Byte strings and integers (spec/00_scope.md R14, R15): `BE_w`, `FROMBE`, bytewise exclusive or, and
cutting a string into blocks. -/

namespace Sys2Proof.Machine

/-- The `n`-byte big-endian byte string of `v mod 2^(8n)`: `BE_w` of R15 with `n = w/8`. -/
def be : Nat → Nat → List Byte
  | 0, _ => []
  | n + 1, v => BitVec.ofNat 8 (v >>> (8 * n)) :: be n v

/-- `FROMBE` of R15: the integer of a big-endian byte string. -/
def fromBE (s : List Byte) : Nat := s.foldl (fun acc b => acc * 256 + b.toNat) 0

/-- Bytewise exclusive or of two strings (R134, R143). -/
def xorBytes (a b : List Byte) : List Byte := List.zipWith (· ^^^ ·) a b

/-- The first `k` blocks of `n` bytes of a string. -/
def takeBlocks (n : Nat) : Nat → List Byte → List (List Byte)
  | 0, _ => []
  | k + 1, m => m.take n :: takeBlocks n k (m.drop n)

/-- The blocks of `n` bytes of a string whose length is a multiple of `n`. -/
def blocksOf (n : Nat) (m : List Byte) : List (List Byte) := takeBlocks n (m.length / n) m

end Sys2Proof.Machine
end

