-- ==== Sys2Proof/Machine/Memory.lean ====
section
/-! DEFINITION. The byte register files ENT, SEED, MN and PP (spec/10_state.md R21, R27, R28, R30): what is behind
the byte windows of the address map (spec/20_memory.md R53). Each is a list of (index, byte) cells in one canonical
form, so that equal files are equal data (log entry 7). -/

namespace Sys2Proof.Machine

/-- A byte register file: the cells of its bytes that are not zero, by rising index. -/
abbrev Memory := List Host.Cell

/-- What a byte with no cell reads as: 0x00, the reset value R43 gives every byte of ENT, MN, PP and SEED. -/
def Memory.unlisted : Byte := 0x00

/-- The canonical form: indices strictly rising, no cell equal to what an unlisted byte reads as. -/
abbrev Memory.wf (m : Memory) : Prop :=
  m.Pairwise (fun c d => c.1 < d.1) ∧ ∀ c ∈ m, c.2 ≠ Memory.unlisted

/-- Every cell's index is below `n`: the file has `n` registers and no more. -/
abbrev Memory.below (n : Nat) (m : Memory) : Prop := ∀ c ∈ m, c.1 < n

/-- One byte. -/
def Memory.get : Memory → Nat → Byte
  | [], _ => Memory.unlisted
  | (k, b) :: rest, i => if k = i then b else Memory.get rest i

/-- Writing one byte; the canonical form is kept. -/
def Memory.set : Memory → Nat → Byte → Memory
  | [], i, v => if v = Memory.unlisted then [] else [(i, v)]
  | (k, b) :: rest, i, v =>
    if i < k then (if v = Memory.unlisted then (k, b) :: rest else (i, v) :: (k, b) :: rest)
    else if i = k then (if v = Memory.unlisted then rest else (i, v) :: rest)
    else (k, b) :: Memory.set rest i v

/-- The first `n` bytes as a byte string (R14). -/
def Memory.bytes (m : Memory) (n : Nat) : List Byte := (List.range n).map m.get

/-- Writing the first `n` bytes of a byte string at indices 0 to `n - 1`, in order (the loop of R141). -/
@[irreducible] def Memory.setBytes (m : Memory) (n : Nat) (s : List Byte) : Memory :=
  (List.range n).foldl (fun acc i => acc.set i (s.getD i 0)) m

/-- The word a byte window shows at word `w`: byte `4w` in the least significant lane (R55). -/
def Memory.word (m : Memory) (w : Nat) : Word :=
  m.get (4 * w + 3) ++ m.get (4 * w + 2) ++ m.get (4 * w + 1) ++ m.get (4 * w)

/-- Writing word `w` of a byte window: all four bytes, lowest lane first (R55, R56). -/
def Memory.setWord (m : Memory) (w : Nat) (v : Word) : Memory :=
  (((m.set (4 * w) (v.extractLsb' 0 8)).set (4 * w + 1) (v.extractLsb' 8 8)).set
    (4 * w + 2) (v.extractLsb' 16 8)).set (4 * w + 3) (v.extractLsb' 24 8)

end Sys2Proof.Machine
end

