-- ==== Sys2Proof/Machine/Sha2.lean ====
section
/-! DEFINITION. What SHA-256 (spec/40_checksum.md R95 to R101) and SHA-512 (spec/42_kdf.md R126 to R131) have in
common, said once for words of `w` bits: padding, message schedule, rounds, compression, digest. The two files
Sha256.lean and Sha512.lean give the word functions and the tables of each. The functions whose evaluation is long are
marked irreducible, so that no unifier computes a hash by accident; unfold them by name. -/

namespace Sys2Proof.Machine

/-- Eight words: a chaining value `H[0..7]` and the working variables `a .. h` (R99, R101, R130, R131). -/
structure Vars (w : Nat) where
  a : BitVec w
  b : BitVec w
  c : BitVec w
  d : BitVec w
  e : BitVec w
  f : BitVec w
  g : BitVec w
  h : BitVec w
  deriving DecidableEq, Repr

/-- Eight zero words. -/
def Vars.zero (w : Nat) : Vars w := ⟨0, 0, 0, 0, 0, 0, 0, 0⟩

/-- What distinguishes one hash of the family: its four sigma functions, its initial value and its round constants. -/
structure Sha2 (w : Nat) where
  bsig0 : BitVec w → BitVec w
  bsig1 : BitVec w → BitVec w
  ssig0 : BitVec w → BitVec w
  ssig1 : BitVec w → BitVec w
  init : Vars w
  k : List (BitVec w)

variable {w : Nat}

/-- `Ch` (R95, R126). -/
def ch (x y z : BitVec w) : BitVec w := (x &&& y) ^^^ (~~~x &&& z)

/-- `Maj` (R95, R126). -/
def maj (x y z : BitVec w) : BitVec w := (x &&& y) ^^^ (x &&& z) ^^^ (y &&& z)

/-- The block length in bytes: sixteen words (64 for SHA-256, 128 for SHA-512). -/
def blockBytes (w : Nat) : Nat := 2 * w

/-- The bytes of the length field: 8 for SHA-256 (R98), 16 for SHA-512 (R129). -/
def lengthBytes (w : Nat) : Nat := w / 4

/-- The padding that follows a message of `len` bytes (R98, R129): 0x80, then the least number of zero bytes that
makes the whole a multiple of the block, then the length in bits. -/
def padding (w len : Nat) : List Byte :=
  0x80 :: (List.replicate ((blockBytes w - (len + 1 + lengthBytes w) % blockBytes w) % blockBytes w) 0
    ++ be (lengthBytes w) (8 * len))

/-- The sixteen words of a block, big-endian (R100, R131). -/
def blockWords (w : Nat) (x : List Byte) : List (BitVec w) :=
  (takeBlocks (w / 8) 16 x).map fun s => BitVec.ofNat w (fromBE s)

/-- One more word of the schedule, on the words so far with the LATEST FIRST, so that `W[t-n]` is entry `n-1`:
`W[t] = SSIG1(W[t-2]) + W[t-7] + SSIG0(W[t-15]) + W[t-16]` (R100, R131). -/
def scheduleStep (v : Sha2 w) (ws : List (BitVec w)) : List (BitVec w) :=
  (v.ssig1 (ws.getD 1 0) + ws.getD 6 0 + v.ssig0 (ws.getD 14 0) + ws.getD 15 0) :: ws

/-- The message schedule `W` of a block, as many words as there are round constants (R100, R131). -/
@[irreducible] def schedule (v : Sha2 w) (x : List Byte) : List (BitVec w) :=
  ((scheduleStep v)^[v.k.length - 16] (blockWords w x).reverse).reverse

/-- One round on the working variables, with its constant and its schedule word (R101, R131). -/
def round (v : Sha2 w) (s : Vars w) (kw : BitVec w × BitVec w) : Vars w :=
  match s with
  | ⟨a, b, c, d, e, f, g, h⟩ =>
    let t1 := h + v.bsig1 e + ch e f g + kw.1 + kw.2
    let t2 := v.bsig0 a + maj a b c
    ⟨t1 + t2, a, b, c, d + t1, e, f, g⟩

/-- Word by word addition modulo `2^w` (R101, R131, last line). -/
def Vars.add (x y : Vars w) : Vars w :=
  ⟨x.a + y.a, x.b + y.b, x.c + y.c, x.d + y.d, x.e + y.e, x.f + y.f, x.g + y.g, x.h + y.h⟩

/-- The rounds on a given schedule, and the final addition (R101, R131). -/
@[irreducible] def compressWith (v : Sha2 w) (hv : Vars w) (ws : List (BitVec w)) : Vars w :=
  hv.add ((v.k.zip ws).foldl (round v) hv)

/-- `COMPRESS256` and `COMPRESS512` (R101, R131). -/
def compress (v : Sha2 w) (hv : Vars w) (x : List Byte) : Vars w := compressWith v hv (schedule v x)

/-- A chaining value after all the blocks of a padded string (the loop of R99, R130). -/
def absorb (v : Sha2 w) (hv : Vars w) (m : List Byte) : Vars w :=
  (blocksOf (blockBytes w) m).foldl (compress v) hv

/-- The digest of a chaining value, each word big-endian (R99, R130). -/
def digest (hv : Vars w) : List Byte :=
  [hv.a, hv.b, hv.c, hv.d, hv.e, hv.f, hv.g, hv.h].flatMap fun x => be (w / 8) x.toNat

/-- The hash of a message whose first `done` bytes, a whole number of blocks, are already in the chaining value
`hv` (R133). -/
def hashFrom (v : Sha2 w) (hv : Vars w) (done : Nat) (m : List Byte) : List Byte :=
  digest (absorb v hv (m ++ padding w (done + m.length)))

/-- `SHA256`, `SHA512` (R99, R130). -/
def hash (v : Sha2 w) (m : List Byte) : List Byte := hashFrom v v.init 0 m

end Sys2Proof.Machine
end

