-- ==== Sys2Proof/Machine/State.lean ====
section
/-! DEFINITION. The state of the engine (spec/10_state.md R20 to R35), its value after reset (R43), and the reasons a
step of the model can stop. -/

namespace Sys2Proof.Machine

/-- `SEQ.phase` (R34). -/
inductive Phase where
  /-- No command in flight. -/
  | idle
  /-- A command in flight: `STATUS.BUSY` (R31). -/
  | run
  /-- An internal assertion has failed: `STATUS.FAULT` (R31, R170). -/
  | fault
  deriving DecidableEq, Repr

/-- One entry of the total order of host transactions and engine steps (spec/20_memory.md R66). -/
inductive Turn where
  /-- The host's `MemRead(addr, 4)` (R50, R58). -/
  | read (addr : Addr)
  /-- The host's `MemWrite(addr, 4, v)` (R50, R59). -/
  | write (addr : Addr) (v : Word)
  /-- The engine's turn: the completion step, when a command is in flight (spec/30_encoding.md R84). -/
  | complete
  /-- An internal step of the command in flight that updates `WRK` alone (R87). -/
  | work
  /-- The platform asserts reset (spec/70_reset_and_hazards.md R190). -/
  | reset
  deriving DecidableEq, Repr

/-- `WRK`, the working state no host can read (R35). -/
structure Working where
  /-- The SHA-256 message schedule; empty when zero. -/
  sched256 : List Word
  /-- The SHA-256 chaining value. -/
  chain256 : Vars 32
  /-- The HMAC key block `k1` (the hashed or zero-padded key); empty when zero. -/
  key : List Byte
  /-- The SHA-512 chaining value after the inner pad block. -/
  inner : Vars 64
  /-- The SHA-512 chaining value after the outer pad block. -/
  outer : Vars 64
  /-- The assembled salt; empty when zero. -/
  salt : List Byte
  /-- The current `U_j`; empty when zero. -/
  u : List Byte
  /-- The accumulator `T`; empty when zero. -/
  t : List Byte
  /-- The iteration counter. -/
  iter : BitVec 12
  deriving DecidableEq, Repr

/-- `WRK` zeroised (R35). -/
def Working.zero : Working :=
  { sched256 := [], chain256 := Vars.zero 32, key := [], inner := Vars.zero 64, outer := Vars.zero 64,
    salt := [], u := [], t := [], iter := 0 }

/-- The state (R20). `agenda` and `reply` are the model's own (log entries 1 and 2). -/
structure State where
  /-- `ENT[0..31]` (R21). -/
  ent : Memory
  /-- `ENT_N` (R24). -/
  entN : Word
  /-- `CS`, the checksum, top-aligned (R25). -/
  cs : Byte
  /-- `CSW`, the checksum's width (R25). -/
  csw : BitVec 4
  /-- `CS_VALID` (R25, R31). -/
  csValid : Bool
  /-- `IDX[0..23]` (R26). -/
  idx : Vector (BitVec 11) 24
  /-- `IDX_CNT` (R26). -/
  idxCnt : BitVec 5
  /-- `IDX_VALID` (R26, R31). -/
  idxValid : Bool
  /-- `MN[0..MN_MAX-1]` (R27). -/
  mn : Memory
  /-- `MN_LEN` (R27). -/
  mnLen : Word
  /-- `PP[0..PP_MAX-1]` (R28). -/
  pp : Memory
  /-- `PP_LEN` (R28). -/
  ppLen : Word
  /-- `PP_CTRL.PRESENT` (R29). -/
  ppPresent : Bool
  /-- `SEED[0..63]` (R30). -/
  seed : Memory
  /-- `SEED_VALID` (R30, R31). -/
  seedValid : Bool
  /-- `STATUS.LASTOP` (R31). -/
  lastop : Byte
  /-- `EVENT`, bits 8:0; bit 7 is reserved (R32). -/
  event : BitVec 9
  /-- `IE`, bits 8:0; bit 7 is reserved (R33). -/
  ie : BitVec 9
  /-- `SEQ.phase` (R34). -/
  phase : Phase
  /-- `SEQ.cmd`, the accepted command word (R34). -/
  cmd : Word
  /-- `WRK` (R35). -/
  wrk : Working
  /-- The turns still to come, the next one first: which agent moves next is data (R66, U8). -/
  agenda : List Turn
  /-- What the read of the last turn returned (R58); none when the last turn was no read. -/
  reply : Option Word
  deriving DecidableEq, Repr

/-- Twenty-four zero indices. -/
def zeroIdx : Vector (BitVec 11) 24 := Vector.replicate 24 0

/-- The state after reset (R43, R190); no turn to come, nothing read. -/
def State.reset : State :=
  { ent := [], entN := 0, cs := 0, csw := 0, csValid := false, idx := zeroIdx, idxCnt := 0, idxValid := false,
    mn := [], mnLen := 0, pp := [], ppLen := 0, ppPresent := false, seed := [], seedValid := false,
    lastop := 0, event := 0, ie := 0, phase := .idle, cmd := 0, wrk := Working.zero, agenda := [], reply := none }

/-- Why a step of the model stops. Neither reason arises from a state in which every pre-check of the command in
flight held at its accept: the spec gives those states no meaning. The engine's own fault phase (R170) is a next
state, not one of these. -/
inductive Fault where
  /-- Raised by the engine's turn when the phase is RUN and `SEQ.cmd` is none of the 13 legal words. No accept leaves
  such a state (R79, R81, R82); the spec gives its completion no case. Safe: the model stops. -/
  | illegalInFlight
  /-- Raised by the completion of a command when a length register holds a value for which its pseudocode says nothing:
  `CSUM` or `ENCODE` with a length outside `NSET` (R104, R116), `PACK` with more entropy bytes than there are registers
  (R111), `DERIVE` with a text longer than its buffer (R141). The pre-checks refuse these (R81) and inputs are frozen
  in RUN (R67), so no accept leads there. Safe: the model stops. -/
  | operandsRefused
  deriving DecidableEq, Repr

/-- Why the model has no meaning for an instruction. -/
inductive Refusal where
  /-- Raised by an arm of `exec` whose instruction has no meaning in the model; there is no such arm. Safe. -/
  | notModelled (mnemonic : String)
  deriving DecidableEq, Repr

end Sys2Proof.Machine
end

