-- ==== Sys2Proof/Machine/Flags.lean ====
section
/-! DEFINITION. The status and event registers: the events and their codes (spec/60_exceptions.md R160), EVENT and IE
(spec/10_state.md R32, R33), STATUS (R31), the interrupt output (R42, R172), and raising an error (R161), which is all
that "taking an exception" is on this engine but for the fault entry of Ops.lean. -/

namespace Sys2Proof.Machine

/-- The causes the engine can report (R160). -/
inductive Event where
  | done
  | eIllcmd
  | eCfg
  | eSeq
  | eLen
  | eBusy
  | eAccess
  | fInv
  deriving DecidableEq, Repr

/-- The code of a cause: its bit number in EVENT and IE (R160). -/
def Event.code : Event → Nat
  | .done => 0
  | .eIllcmd => 1
  | .eCfg => 2
  | .eSeq => 3
  | .eLen => 4
  | .eBusy => 5
  | .eAccess => 6
  | .fInv => 8

/-- EVENT with the bit of a cause set. -/
def withEvent (e : Event) (ev : BitVec 9) : BitVec 9 := ev ||| (1#9 <<< e.code)

/-- Set one bit of EVENT and change nothing else: `raise E` of R161. -/
def raise (e : Event) (s : State) : State := { s with event := withEvent e s.event }

/-- The bits of EVENT and IE that exist: 6:0 and 8 (R32, R33). -/
def eventMask : BitVec 9 := 0x17F

/-- EVENT after the host writes `v`: bits 6:0 are cleared where `v` is 1, the others stay (R32). -/
def eventAfterWrite (ev : BitVec 9) (v : Word) : BitVec 9 :=
  ev &&& ~~~((v.extractLsb' 0 7).zeroExtend 9)

/-- IE after the host writes `v` (R33). -/
def ieAfterWrite (v : Word) : BitVec 9 := v.extractLsb' 0 9 &&& eventMask

/-- What register EVENT reads: the reserved bits read zero (R32). -/
def eventWord (s : State) : Word := (s.event &&& eventMask).zeroExtend 32

/-- What register IE reads: the reserved bits read zero (R33). -/
def ieWord (s : State) : Word := (s.ie &&& eventMask).zeroExtend 32

/-- The interrupt output: some event bit is set whose enable bit is set (R42, R172). -/
def irq (s : State) : Bool := (eventWord s &&& ieWord s) ≠ 0

/-- What register STATUS reads (R31). -/
def statusWord (s : State) : Word :=
  0#16 ++ s.lastop ++ 0#3 ++ BitVec.ofBool s.seedValid ++ BitVec.ofBool s.idxValid ++ BitVec.ofBool s.csValid
    ++ BitVec.ofBool (s.phase = .fault) ++ BitVec.ofBool (s.phase = .run)

/-- `CS_VAL`: the checksum as a right-aligned integer, 0 while there is none (R25). -/
def csVal (s : State) : Byte := if s.csw = 0 then 0 else s.cs >>> (8 - s.csw.toNat)

/-- What register CSUM_OUT reads (R25). -/
def csumOutWord (s : State) : Word := 0#8 ++ csVal s ++ 0#4 ++ s.csw ++ s.cs

end Sys2Proof.Machine
end

