-- ==== Sys2Proof/Machine/AddressMap.lean ====
section
/-! DEFINITION. The address map of the register window (spec/20_memory.md R53) and what each register reads (R58). -/

namespace Sys2Proof.Machine

/-- A register or a word of a window (R53). -/
inductive Target where
  | id
  | cap
  | cmd
  | status
  | event
  | ie
  | entN
  | csumOut
  | idxCnt
  | mnLen
  | ppLen
  | ppCtrl
  /-- Word `w` of the ENT window. -/
  | ent (w : Nat)
  /-- `IDX[k]`. -/
  | idx (k : Nat)
  /-- Word `w` of the SEED window. -/
  | seed (w : Nat)
  /-- Word `w` of the MN window. -/
  | mn (w : Nat)
  /-- Word `w` of the PP window. -/
  | pp (w : Nat)
  deriving DecidableEq, Repr

/-- The register of a word-aligned byte address (R53); none when it is unmapped (R54). -/
def mapped (n : Nat) : Option Target :=
  if n = 0x000 then some .id
  else if n = 0x004 then some .cap
  else if n = 0x008 then some .cmd
  else if n = 0x00C then some .status
  else if n = 0x010 then some .event
  else if n = 0x014 then some .ie
  else if n = 0x018 then some .entN
  else if n = 0x01C then some .csumOut
  else if n = 0x020 then some .idxCnt
  else if n = 0x024 then some .mnLen
  else if n = 0x028 then some .ppLen
  else if n = 0x02C then some .ppCtrl
  else if 0x100 ≤ n ∧ n < 0x100 + Config.entBytes then some (.ent ((n - 0x100) / 4))
  else if 0x140 ≤ n ∧ n < 0x1A0 then some (.idx ((n - 0x140) / 4))
  else if 0x1C0 ≤ n ∧ n < 0x1C0 + Config.dkLen then some (.seed ((n - 0x1C0) / 4))
  else if 0x400 ≤ n ∧ n < 0x400 + Config.mnMax then some (.mn ((n - 0x400) / 4))
  else if 0x800 ≤ n ∧ n < 0x800 + Config.ppMax then some (.pp ((n - 0x800) / 4))
  else none

/-- What an address selects: none when it is misaligned (R51) or unmapped (R54). -/
def target (a : Addr) : Option Target := if a.toNat % 4 = 0 then mapped a.toNat else none

/-- The byte address of register CMD (R75). -/
def cmdAddr : Addr := 0x008

/-- Registers and windows the host cannot write (R59 line 2). -/
def Target.readOnly : Target → Bool
  | .id | .cap | .status | .csumOut | .idxCnt | .idx _ | .seed _ => true
  | .cmd | .event | .ie | .entN | .mnLen | .ppLen | .ppCtrl | .ent _ | .mn _ | .pp _ => false

/-- What register CAP reads: MN_MAX in bits 15:0, PP_MAX in bits 31:16 (spec/10_state.md R41). -/
def capWord : Word := BitVec.ofNat 16 Config.ppMax ++ BitVec.ofNat 16 Config.mnMax

/-- What a register reads (R58). -/
def readTarget (s : State) : Target → Word
  | .id => Config.idWord
  | .cap => capWord
  | .cmd => 0
  | .status => statusWord s
  | .event => eventWord s
  | .ie => ieWord s
  | .entN => s.entN
  | .csumOut => csumOutWord s
  | .idxCnt => s.idxCnt.zeroExtend 32
  | .mnLen => s.mnLen
  | .ppLen => s.ppLen
  | .ppCtrl => (BitVec.ofBool s.ppPresent).zeroExtend 32
  | .ent w => s.ent.word w
  | .idx k => (s.idx[k]?.getD 0).zeroExtend 32
  | .seed w => s.seed.word w
  | .mn w => s.mn.word w
  | .pp w => s.pp.word w

end Sys2Proof.Machine
end

