-- ==== Sys2Proof/Syntax.lean ====
section
/-! DEFINITION. The engine's instructions: the six commands of spec/30_encoding.md R77, one constructor per row of
spec/opcode_table.json, and the three fields of a command word (R75) before any check. -/

namespace Sys2Proof

/-- A command (R77). The one immediate is `ARG`, a 3-bit mask that only `CLEAR` uses (R76). -/
inductive Instr where
  /-- `NOP` (R150). -/
  | nop
  /-- `CSUM` (R104). -/
  | csum
  /-- `PACK` (R114). -/
  | pack
  /-- `ENCODE` (R116). -/
  | encode
  /-- `DERIVE` (R141). -/
  | derive
  /-- `CLEAR` with its group mask: bit 0 ENTROPY, bit 1 KDFIN, bit 2 SEED (R76, R152). -/
  | clear (groups : BitVec 3)
  deriving DecidableEq, Repr

/-- The fields of a command word (R75), unchecked: a term that need not be a command. -/
structure RawCommand where
  /-- `OPC`, bits 7:0. -/
  opc : BitVec 8
  /-- `ARG`, bits 10:8. -/
  arg : BitVec 3
  /-- `RSV`, bits 31:11. -/
  rsv : BitVec 21
  deriving DecidableEq, Repr

/-- The fields each command is written with (R77, R78). -/
def Instr.raw : Instr → RawCommand
  | .nop => ⟨0x00, 0, 0⟩
  | .csum => ⟨0x01, 0, 0⟩
  | .pack => ⟨0x02, 0, 0⟩
  | .encode => ⟨0x03, 0, 0⟩
  | .derive => ⟨0x04, 0, 0⟩
  | .clear groups => ⟨0x05, groups, 0⟩

end Sys2Proof
end

