-- ==== Sys2Proof/WellFormed.lean ====
section
/-! DEFINITION. When the fields of a command word are those of a command: the three conditions whose failure
spec/30_encoding.md R79 calls illegal. -/

namespace Sys2Proof

/-- `RSV = 0` (R79). -/
def RawCommand.rsvZero (r : RawCommand) : Bool := r.rsv = 0

/-- `OPC < 0x06` (R79). -/
def RawCommand.opcKnown (r : RawCommand) : Bool := r.opc.toNat < 0x06

/-- `ARG = 0` unless the opcode is that of `CLEAR` (R79). -/
def RawCommand.argAllowed (r : RawCommand) : Bool := r.opc = 0x05 || r.arg = 0

/-- The fields are those of one of the 13 legal words (R78, R79). -/
def RawCommand.wellFormed (r : RawCommand) : Bool := r.rsvZero && r.opcKnown && r.argAllowed

/-- An instruction is well formed when its fields are. Every term of `Instr` is (all eight masks of `CLEAR` are
legal, R152): the type leaves no ill-formed instruction. -/
def Instr.wellFormed (i : Instr) : Bool := i.raw.wellFormed

end Sys2Proof
end

