-- ==== Sys2Proof/Decode.lean ====
section
/-! DEFINITION. The decoder of spec/30_encoding.md R81, total over all 2^32 words (R79), and the encoder of R78. -/

namespace Sys2Proof

/-- Why a word is illegal (R79), in the order R81 checks. Whoever writes such a word to `CMD` gets `E_ILLCMD`. -/
inductive DecodeError where
  /-- `RSV` is not zero. -/
  | reservedField
  /-- `OPC` is 0x06 or above. -/
  | reservedOpcode
  /-- `ARG` is not zero for a command other than `CLEAR`. -/
  | argNotAllowed
  /-- Fewer than the four bytes of a command word were given. -/
  | truncated
  deriving DecidableEq, Repr

/-- The fields of a word (R75). -/
def rawOf (w : Word) : RawCommand :=
  ⟨w.extractLsb' 0 8, w.extractLsb' 8 3, w.extractLsb' 11 21⟩

/-- The word with given fields (R75). -/
def wordOf (r : RawCommand) : Word := r.rsv ++ r.arg ++ r.opc

/-- The decoding of R81: the three checks in their order, then the opcode. -/
def decodeWord (w : Word) : Except DecodeError Instr :=
  let r := rawOf w
  if r.rsv ≠ 0 then .error .reservedField
  else if 0x06 ≤ r.opc.toNat then .error .reservedOpcode
  else if r.opc ≠ 0x05 ∧ r.arg ≠ 0 then .error .argNotAllowed
  else
    match r.opc.toNat with
    | 0 => .ok .nop
    | 1 => .ok .csum
    | 2 => .ok .pack
    | 3 => .ok .encode
    | 4 => .ok .derive
    | 5 => .ok (.clear r.arg)
    | _ => .error .reservedOpcode

/-- The word of four bytes in the port's lane order, lowest byte first (spec/20_memory.md R55). -/
def wordOfBytes (b0 b1 b2 b3 : Byte) : Word := b3 ++ b2 ++ b1 ++ b0

/-- Byte `k` of a word in the port's lane order (R55). -/
def byteOfWord (w : Word) (k : Nat) : Byte := w.extractLsb' (8 * k) 8

/-- The decoder on any bytes: a command word is four bytes (R75), laid out as the port lays words out (R55). It
answers the instruction and the bytes after it. -/
def decode : List Byte → Except DecodeError (Instr × List Byte)
  | b0 :: b1 :: b2 :: b3 :: rest =>
    match decodeWord (wordOfBytes b0 b1 b2 b3) with
    | .ok i => .ok (i, rest)
    | .error e => .error e
  | _ => .error .truncated

/-- The command word of an instruction (R78). -/
def encode (i : Instr) : Word := wordOf i.raw

/-- The bytes of an instruction in the port's lane order (R55). -/
def encodeBytes (i : Instr) : List Byte :=
  [byteOfWord (encode i) 0, byteOfWord (encode i) 1, byteOfWord (encode i) 2, byteOfWord (encode i) 3]

/-- The 32-bit word that the low `nbits` bits of `w` make, every bit above them zero. -/
def tableWord (nbits w : Nat) : Word := BitVec.ofNat 32 (w % 2 ^ nbits)

/-- The bytes of a word in the port's lane order. -/
def bytesOfWord (w : Word) : List Byte := [byteOfWord w 0, byteOfWord w 1, byteOfWord w 2, byteOfWord w 3]

/-- The instruction the decoder reads from a table row's bits (spec/opcode_table.json numbers bit 0 lowest): the
word is laid out in bytes and given to `decode`. -/
def decodeTableWord (nbits w : Nat) : Option Instr :=
  match decode (bytesOfWord (tableWord nbits w)) with
  | .ok (i, _) => some i
  | .error _ => none

end Sys2Proof
end

