-- ==== Sys2Proof/Machine/Operands.lean ====
section
/-! DEFINITION. The implicit operands of the commands (spec/30_encoding.md R76): the entropy, the sizes derived from
its length, the password, the passphrase and the salt; when they are in range; and what the groups of `CLEAR` name. -/

namespace Sys2Proof.Machine

/-- `ENT_N` is in `NSET`, compared on all 32 bits (spec/60_exceptions.md R163). -/
def entropyOk (s : State) : Bool := Config.nset.contains s.entN.toNat

/-- The entropy `E = ENT[0] ++ ... ++ ENT[ENT_N - 1]` (spec/10_state.md R22). -/
def entropy (s : State) : List Byte := s.ent.bytes s.entN.toNat

/-- The checksum width `CSW(N) = N/4` (spec/00_scope.md R8). -/
def checksumBits (s : State) : Nat := s.entN.toNat / 4

/-- `MN_LEN` does not exceed its buffer (R165). -/
def mnLenOk (s : State) : Bool := s.mnLen.toNat ≤ Config.mnMax

/-- A passphrase that is present does not exceed its buffer; one that is absent is not looked at (R165). -/
def ppLenOk (s : State) : Bool := !s.ppPresent || s.ppLen.toNat ≤ Config.ppMax

/-- The password `P`: the first `MN_LEN` bytes of MN (spec/42_kdf.md R136). -/
def password (s : State) : List Byte := s.mn.bytes s.mnLen.toNat

/-- The passphrase bytes `PPS`: empty when no passphrase is present (R138). -/
def passphrase (s : State) : List Byte := if s.ppPresent then s.pp.bytes s.ppLen.toNat else []

/-- The salt `S = SALT_PREFIX ++ PPS` (R139). -/
def salt (s : State) : List Byte := Config.saltPrefix ++ passphrase s

/-- Bit 0 of the mask of `CLEAR`: the group ENTROPY (R76, R152). -/
def namesEntropy (groups : BitVec 3) : Bool := groups.getLsbD 0

/-- Bit 1 of the mask: the group KDFIN. -/
def namesKdfin (groups : BitVec 3) : Bool := groups.getLsbD 1

/-- Bit 2 of the mask: the group SEED. -/
def namesSeed (groups : BitVec 3) : Bool := groups.getLsbD 2

end Sys2Proof.Machine
end

