-- ==== Sys2Proof/Machine/Ops.lean ====
section
/-! DEFINITION. The shared operations on the state: invalidation (spec/10_state.md R37), zeroisation of a group
(spec/43_control.md R152), accept (spec/30_encoding.md R82), the common completion (R84), the fault entry
(spec/60_exceptions.md R170), and the life cycle that every command goes through (R80). -/

namespace Sys2Proof.Machine

/-- Invalidate the index outputs (R37). -/
def invalidateIndices (s : State) : State := { s with idx := zeroIdx, idxCnt := 0, idxValid := false }

/-- Invalidate the entropy-side outputs (R37). -/
def invalidateEntropySide (s : State) : State :=
  { invalidateIndices s with cs := 0, csw := 0, csValid := false }

/-- Invalidate the seed (R37). -/
def invalidateSeed (s : State) : State := { s with seed := [], seedValid := false }

/-- Zeroise the group ENTROPY: entropy-side inputs and outputs (R152). -/
def zeroiseEntropy (s : State) : State := { invalidateEntropySide s with ent := [], entN := 0 }

/-- Zeroise the group KDFIN (R152). -/
def zeroiseKdfin (s : State) : State :=
  { s with mn := [], mnLen := 0, pp := [], ppLen := 0, ppPresent := false }

/-- Accept a command (R82): LASTOP, SEQ, and the output group `invalidate` names. -/
def accept (i : Instr) (invalidate : State → State) (s : State) : State :=
  { invalidate s with lastop := (encode i).extractLsb' 0 8, phase := .run, cmd := encode i }

/-- The write of a legal command word in phase IDLE (R81): the first pre-check that fails raises its error and
nothing else (R161); otherwise the command is accepted. -/
def issue (i : Instr) (check : Option Event) (invalidate : State → State) (s : State) : State :=
  match check with
  | some e => raise e s
  | none => accept i invalidate s

/-- The common completion (R84): WRK zeroised, SEQ idle, DONE set. -/
def finish (s : State) : State :=
  { s with wrk := Working.zero, phase := .idle, cmd := 0, event := withEvent .done s.event }

/-- The fault entry (R170): every data register zeroised, phase FAULT, F_INV set; LASTOP, IE and the other events
stay. -/
def faultEntry (s : State) : State :=
  { invalidateSeed (zeroiseKdfin (zeroiseEntropy s)) with
    wrk := Working.zero, phase := .fault, cmd := 0, event := withEvent .fInv s.event }

/-- What a command's own work comes to at its completion (R84). -/
inductive Commit where
  /-- The results, to be committed. -/
  | results (s : State)
  /-- A failed assertion (R115, R169). -/
  | assertion
  /-- Operands for which the pseudocode says nothing (log entry 8). -/
  | refused
  deriving DecidableEq, Repr

/-- The completion step (R84), given what the command's own work comes to. -/
def complete (s : State) : Commit → Host.Outcome State Fault Refusal
  | .results t => .next (finish t)
  | .assertion => .next (faultEntry s)
  | .refused => .fault .operandsRefused

/-- The life cycle of a command (R80), by the sequencer's phase: in IDLE the write of its word (R81, R82), in RUN its
completion (R84), in FAULT nothing (R171). -/
def lifeCycle (i : Instr) (check : State → Option Event) (invalidate : State → State) (commit : State → Commit)
    (s : State) : Host.Outcome State Fault Refusal :=
  match s.phase with
  | .idle => .next (issue i (check s) invalidate s)
  | .run => complete s (commit s)
  | .fault => .next s

/-- No pre-check (`NOP`, `CLEAR`; R81). -/
def noCheck (_ : State) : Option Event := none

/-- The pre-check of `CSUM` and `ENCODE` (R81, R163). -/
def entropyCheck (s : State) : Option Event := if entropyOk s then none else some .eCfg

/-- The pre-checks of `PACK`, in order (R81, R163, R164). -/
def packCheck (s : State) : Option Event :=
  if !entropyOk s then some .eCfg else if !s.csValid then some .eSeq else none

/-- The pre-checks of `DERIVE`, in order (R81, R165). -/
def deriveCheck (s : State) : Option Event :=
  if !mnLenOk s then some .eLen else if !ppLenOk s then some .eLen else none

end Sys2Proof.Machine
end

