-- ==== Sys2Proof/Machine/Control.lean ====
section
/-! DEFINITION. The control commands NOP and CLEAR (spec/43_control.md R150 to R153). -/

namespace Sys2Proof.Machine

/-- `NOP` (R150). -/
def execNop (s : State) : Host.Outcome State Fault Refusal := lifeCycle .nop noCheck id .results s

/-- Zeroise the groups a mask names (R152). -/
def clearGroups (groups : BitVec 3) (s : State) : State :=
  let s := if namesEntropy groups then zeroiseEntropy s else s
  let s := if namesKdfin groups then zeroiseKdfin s else s
  if namesSeed groups then invalidateSeed s else s

/-- `CLEAR` (R152). -/
def execClear (groups : BitVec 3) (s : State) : Host.Outcome State Fault Refusal :=
  lifeCycle (.clear groups) noCheck id (fun t => .results (clearGroups groups t)) s

end Sys2Proof.Machine
end

