-- ==== Sys2Proof/Machine/Kdf.lean ====
section
/-! DEFINITION. HMAC with SHA-512 and PBKDF2 (spec/42_kdf.md R132 to R135). -/

namespace Sys2Proof.Machine

/-- `k1` of R132: a key of more than 128 bytes is hashed first, then zero bytes fill the block. -/
def keyBlock (k : List Byte) : List Byte :=
  let k0 := if k.length > 128 then sha512 k else k
  k0 ++ List.replicate (128 - k0.length) 0

/-- The inner pad block of R132. -/
def ipad (k1 : List Byte) : List Byte := k1.map (· ^^^ 0x36)

/-- The outer pad block of R132. -/
def opad (k1 : List Byte) : List Byte := k1.map (· ^^^ 0x5C)

/-- `HMAC512(k, m)` (R132). -/
@[irreducible] def hmac512 (k m : List Byte) : List Byte :=
  sha512 (opad (keyBlock k) ++ sha512 (ipad (keyBlock k) ++ m))

/-- The chaining value after one pad block, computed once per `DERIVE` (R133). -/
@[irreducible] def padState (pad : List Byte) : Vars 64 := compress sha512Spec sha512Spec.init pad

/-- `HMAC512` from the chaining values after the two pad blocks (R133). -/
@[irreducible] def hmacFrom (inner outer : Vars 64) (m : List Byte) : List Byte :=
  hashFrom sha512Spec outer 128 (hashFrom sha512Spec inner 128 m)

/-- `U_1`: the salt and the block index `BE_32(1)` are the message (R134). -/
def firstU (p salt : List Byte) : List Byte := hmac512 p (salt ++ be 4 1)

/-- One pass of the loop of R134 on `(U, T)`: `U <- HMAC512(P, U)`, then `T <- T ^ U`. -/
def kdfPass (p : List Byte) (ut : List Byte × List Byte) : List Byte × List Byte :=
  let u := hmac512 p ut.1
  (u, xorBytes ut.2 u)

/-- `(U_j, T)` after the first `j` iterations, for `j` at least 1 (R134). -/
@[irreducible] def kdfAfter (p salt : List Byte) (j : Nat) : List Byte × List Byte :=
  (kdfPass p)^[j - 1] (firstU p salt, firstU p salt)

/-- `PBKDF2_512(P, S)`: 2048 iterations, one block of 64 bytes (R134, R135). -/
@[irreducible] def pbkdf2 (p salt : List Byte) : List Byte := (kdfAfter p salt Config.iter).2

end Sys2Proof.Machine
end

