-- ==== Sys2Proof/Machine/Derive.lean ====
section
/-! DEFINITION. The seed-derivation unit's command DERIVE (spec/42_kdf.md R136 to R146). -/

namespace Sys2Proof.Machine

/-- The seed of the KDF inputs, committed (R141). -/
def seedResults (s : State) : State :=
  { s with seed := s.seed.setBytes Config.dkLen (pbkdf2 (password s) (salt s)), seedValid := true }

/-- The work of `DERIVE` (R141). -/
def deriveCommit (s : State) : Commit := if mnLenOk s && ppLenOk s then .results (seedResults s) else .refused

/-- `DERIVE` (R141). -/
def execDerive (s : State) : Host.Outcome State Fault Refusal :=
  lifeCycle .derive deriveCheck invalidateSeed deriveCommit s

end Sys2Proof.Machine
end

