-- ==== Sys2Proof/Machine/Checksum.lean ====
section
/-! DEFINITION. The checksum extractor CSE and the command CSUM (spec/40_checksum.md R103 to R106). -/

namespace Sys2Proof.Machine

/-- `CSX`: the top `cw` bits of a digest's first byte, the others zero (R103). -/
def csx (d : List Byte) (cw : Nat) : Byte := d.headD 0 &&& (0xFF#8 <<< (8 - cw))

/-- The checksum of the entropy, committed (R104). -/
def checksumResults (s : State) : State :=
  { s with csw := BitVec.ofNat 4 (checksumBits s), cs := csx (sha256 (entropy s)) (checksumBits s), csValid := true }

/-- The work of `CSUM` (R104). -/
def csumCommit (s : State) : Commit := if entropyOk s then .results (checksumResults s) else .refused

/-- `CSUM` (R104). -/
def execCsum (s : State) : Host.Outcome State Fault Refusal :=
  lifeCycle .csum entropyCheck invalidateEntropySide csumCommit s

end Sys2Proof.Machine
end

