-- ==== Sys2Proof/Machine/Packer.lean ====
section
/-! DEFINITION. The word-index packer WIP and the commands PACK and ENCODE (spec/41_packer.md R110 to R116). -/

namespace Sys2Proof.Machine

/-- Bit `i` of a byte string, most significant bit first (R60, R111). -/
def msbBit (b : Nat → Byte) (i : Nat) : Bool := (b (i / 8)).getLsbD (7 - i % 8)

/-- The flat bit string `B`: the `8N` entropy bits, then the top `cw` bits of CS (R111). -/
def flatBits (s : State) : List Bool :=
  (List.range (8 * s.entN.toNat)).map (msbBit s.ent.get)
    ++ (List.range s.csw.toNat).map (msbBit fun _ => s.cs)

/-- The group `G[k]`: eleven bits, the first the most significant (R112). -/
def group (bits : List Bool) (k : Nat) : Nat :=
  ((List.range Config.groupBits).map fun j => (bits.getD (Config.groupBits * k + j) false).toNat * 2 ^ (10 - j)).sum

/-- The indices: the whole groups of a bit string; a final partial group is discarded (R112, R113). -/
def groups (bits : List Bool) : List Nat := (List.range (bits.length / Config.groupBits)).map (group bits)

/-- The 24 index registers with given indices: `IDX[k]` for `k` below their number, zero above (R114). -/
@[irreducible] def indexRegs (g : List Nat) : Vector (BitVec 11) 24 :=
  Vector.ofFn fun k => BitVec.ofNat 11 (g.getD k.val 0)

/-- Indices committed (R114). -/
def indexResults (g : List Nat) (s : State) : State :=
  { s with idx := indexRegs g, idxCnt := BitVec.ofNat 5 g.length, idxValid := true }

/-- The work of `PACK` with its two assertions (R114, R115). The first, `cw = N / 4`, is an equation of numbers: it
fails too when 4 does not divide `N`. An entropy longer than its registers has no bit string (log entry 8). -/
def packCommit (s : State) : Commit :=
  if 4 * s.csw.toNat ≠ s.entN.toNat then .assertion
  else if Config.entBytes < s.entN.toNat then .refused
  else if (groups (flatBits s)).all (· ≤ Config.indexMax) then .results (indexResults (groups (flatBits s)) s)
  else .assertion

/-- `PACK` (R114). -/
def execPack (s : State) : Host.Outcome State Fault Refusal :=
  lifeCycle .pack packCheck invalidateIndices packCommit s

/-- The work of `ENCODE`: that of `CSUM`, then that of `PACK` on its results (R116). -/
def encodeCommit (s : State) : Commit :=
  match csumCommit s with
  | .results t => packCommit t
  | other => other

/-- `ENCODE` (R116). -/
def execEncode (s : State) : Host.Outcome State Fault Refusal :=
  lifeCycle .encode entropyCheck invalidateEntropySide encodeCommit s

end Sys2Proof.Machine
end

