-- ==== Sys2Proof/Machine/Work.lean ====
section
/-! DEFINITION. The internal steps of spec/30_encoding.md R87: a command in flight may be computed piece by piece in
WRK. They update WRK alone; the completion (R84) does not read it (log entry 6). -/

namespace Sys2Proof.Machine

/-- `CSUM` and `ENCODE`: one internal step compresses the entropy's one padded block (spec/40_checksum.md R102). -/
def checksumWork (s : State) (k : Working) : Working :=
  if k.sched256 = [] then
    let ws := schedule sha256Spec (entropy s ++ padding 32 (entropy s).length)
    { k with sched256 := ws, chain256 := compressWith sha256Spec sha256Spec.init ws }
  else k

/-- `DERIVE`: the first internal step prepares the key block, the pads' chaining values and the salt and computes
`U_1`; each further one is one iteration; after 2048 nothing is left to do (spec/42_kdf.md R133, R134). -/
def deriveWork (s : State) (k : Working) : Working :=
  if k.iter = 0 then
    let key := keyBlock (password s)
    let inner := padState (ipad key)
    let outer := padState (opad key)
    let u := hmacFrom inner outer (salt s ++ be 4 1)
    { k with key := key, inner := inner, outer := outer, salt := salt s, u := u, t := u, iter := 1 }
  else if k.iter.toNat < Config.iter then
    let u := hmacFrom k.inner k.outer k.u
    { k with u := u, t := xorBytes k.t u, iter := k.iter + 1 }
  else k

/-- One internal step of the command in flight (R87); without one, nothing. -/
def workStep (s : State) : State :=
  match s.phase, decodeWord s.cmd with
  | .run, .ok .csum => { s with wrk := checksumWork s s.wrk }
  | .run, .ok .encode => { s with wrk := checksumWork s s.wrk }
  | .run, .ok .derive => { s with wrk := deriveWork s s.wrk }
  | _, _ => s

end Sys2Proof.Machine
end

