-- ==== Sys2Proof/Machine/Port.lean ====
section
/-! DEFINITION. The transactions of the port (spec/20_memory.md R58, R59), the engine's turn
(spec/30_encoding.md R84), and what each turn of the agenda does. -/

namespace Sys2Proof.Machine

/-- A read transaction (R58): the value returned stands in `reply`. -/
def memRead (a : Addr) (s : State) : State :=
  match target a with
  | none => { raise .eAccess s with reply := some 0 }
  | some t => { s with reply := some (readTarget s t) }

/-- A write to an input register in phase IDLE: lines 8 to 14 of R59. -/
def writeInput (t : Target) (v : Word) (s : State) : State :=
  match t with
  | .entN => { invalidateEntropySide s with entN := v }
  | .ent w => { invalidateEntropySide s with ent := s.ent.setWord w v }
  | .mnLen => { invalidateSeed s with mnLen := v }
  | .ppLen => { invalidateSeed s with ppLen := v }
  | .ppCtrl => { invalidateSeed s with ppPresent := v.getLsbD 0 }
  | .mn w => { invalidateSeed s with mn := s.mn.setWord w v }
  | .pp w => { invalidateSeed s with pp := s.pp.setWord w v }
  | .id | .cap | .cmd | .status | .event | .ie | .csumOut | .idxCnt | .idx _ | .seed _ => s

/-- A write of `CMD` in phase IDLE (R81): an illegal word raises E_ILLCMD, a legal one is the command's. -/
def writeCmd (v : Word) (s : State) : Host.Outcome State Fault Refusal :=
  match decodeWord v with
  | .error _ => .next (raise .eIllcmd s)
  | .ok i => exec i s

/-- A write that needs the phase: lines 5 to 14 of R59. -/
def writePhased (t : Target) (v : Word) (s : State) : Host.Outcome State Fault Refusal :=
  match s.phase with
  | .fault => .next s
  | .run => .next (raise .eBusy s)
  | .idle => if t = .cmd then writeCmd v s else .next (writeInput t v s)

/-- A write transaction, the first line of R59 that matches. -/
def memWrite (a : Addr) (v : Word) (s : State) : Host.Outcome State Fault Refusal :=
  match target a with
  | none => .next (raise .eAccess s)
  | some t =>
    if t.readOnly then .next (raise .eAccess s)
    else if t = .event then .next { s with event := eventAfterWrite s.event v }
    else if t = .ie then .next { s with ie := ieAfterWrite v }
    else writePhased t v s

/-- The engine's turn (R84): the completion of the command in flight; without one the engine has no step. -/
def engineTurn (s : State) : Host.Outcome State Fault Refusal :=
  match s.phase with
  | .run =>
    match decodeWord s.cmd with
    | .ok i => exec i s
    | .error _ => .fault .illegalInFlight
  | .idle => .next s
  | .fault => .next s

/-- Reset: every piece of the engine's state at its reset value; the turns to come stay (R190, log entry 10). -/
def resetTurn (s : State) : State := { State.reset with agenda := s.agenda }

/-- One turn. -/
def runTurn (t : Turn) (s : State) : Host.Outcome State Fault Refusal :=
  match t with
  | .read a => .next (memRead a s)
  | .write a v => memWrite a v s
  | .complete => engineTurn s
  | .work => .next (workStep s)
  | .reset => .next (resetTurn s)

/-- The state as a turn finds it: the turns after it still to come, and no reply yet. -/
def State.atTurn (s : State) (rest : List Turn) : State := { s with agenda := rest, reply := none }

/-- The next turn of the agenda; when nothing is left to come it is the engine's (R85, log entry 1). -/
def nextTurn (s : State) : Host.Outcome State Fault Refusal :=
  match s.agenda with
  | [] => engineTurn (s.atTurn [])
  | t :: rest => runTurn t (s.atTurn rest)

/-- The state in which a table row's word is the command of the very next turn: the sequencer is idle and the host's
write of the word to CMD comes first (log entry 4). -/
def placeCommand (s : State) (w : Word) : State :=
  { s with phase := .idle, cmd := 0, agenda := .write cmdAddr w :: s.agenda }

end Sys2Proof.Machine
end

