-- ==== Sys2Proof/Machine/Step.lean ====
section
/-! DEFINITION. One step of the model: the next entry of the total order of spec/20_memory.md R66. -/

namespace Sys2Proof.Machine

/-- One step: the next turn of the agenda. -/
def step (s : State) : Host.Outcome State Fault Refusal := nextTurn s

/-- The state in which the very next step runs the instruction whose table bits are `w` (log entry 4). -/
def State.withFetchWord (s : State) (nbits w : Nat) : State := placeCommand s (tableWord nbits w)

end Sys2Proof.Machine
end

