-- ==== Sys2Proof/Safety.lean ====
section
/-! DEFINITION. The terms the statements use: the invariants of spec/10_state.md R36 and the facts they rest on, runs of
several steps, what a host observes (spec/00_scope.md R12), and a state without its working state. -/

namespace Sys2Proof.Machine

/-- The four byte register files are canonical and no larger than the engine has registers (log entry 7). -/
structure State.MemoryInv (s : State) : Prop where
  ent : s.ent.wf ∧ s.ent.below Config.entBytes
  mn : s.mn.wf ∧ s.mn.below Config.mnMax
  pp : s.pp.wf ∧ s.pp.below Config.ppMax
  seed : s.seed.wf ∧ s.seed.below Config.dkLen

/-- What phase RUN implies about the command in flight (R36 item 7, and what its pre-check established, R81): its
output group is zero and its operands are in range. -/
def State.InFlight (s : State) : Instr → Prop
  | .nop => True
  | .csum => entropyOk s = true ∧ s.csValid = false ∧ s.idxValid = false
  | .pack => entropyOk s = true ∧ s.csValid = true ∧ s.idxValid = false
  | .encode => entropyOk s = true ∧ s.csValid = false ∧ s.idxValid = false
  | .derive => mnLenOk s = true ∧ ppLenOk s = true ∧ s.seedValid = false
  | .clear _ => True

/-- The state invariants (R36 items 1 to 5, 7 to 9) with the facts they rest on. Item 9 is the type of `idx`; item 6
speaks of an earlier state and is a statement of its own. -/
structure State.Inv (s : State) : Prop where
  /-- The register files have their form. -/
  memory : s.MemoryInv
  /-- R36 item 1. -/
  noChecksum : s.csValid = false → s.cs = 0 ∧ s.csw = 0
  /-- R36 item 2. -/
  checksum : s.csValid = true →
    entropyOk s = true ∧ s.csw.toNat = checksumBits s ∧ s.cs = csx (sha256 (entropy s)) (checksumBits s)
  /-- R36 item 3. -/
  noIndices : s.idxValid = false → s.idxCnt = 0 ∧ s.idx = zeroIdx
  /-- R36 item 4. -/
  indices : s.idxValid = true →
    s.csValid = true ∧ s.idxCnt.toNat = 3 * s.entN.toNat / 4 ∧ s.idx = indexRegs (groups (flatBits s))
  /-- R36 item 5. -/
  noSeed : s.seedValid = false → s.seed = []
  /-- R36 item 7: the word in flight is a command's, LASTOP names it, its outputs are zero. -/
  run : s.phase = .run →
    ∃ i, s.cmd = encode i ∧ s.lastop = (encode i).extractLsb' 0 8 ∧ s.InFlight i
  /-- R36 item 8: everything zero in FAULT. -/
  fault : s.phase = .fault →
    s.ent = [] ∧ s.entN = 0 ∧ s.csValid = false ∧ s.idxValid = false ∧ s.mn = [] ∧ s.mnLen = 0 ∧ s.pp = [] ∧
      s.ppLen = 0 ∧ s.ppPresent = false ∧ s.seedValid = false
  /-- Outside RUN, SEQ holds no word and WRK is zero (R34, R35). -/
  notRun : s.phase ≠ .run → s.cmd = 0 ∧ s.wrk = Working.zero
  /-- The reserved bits of EVENT and IE are zero (R32, R33). -/
  reserved : s.event &&& ~~~eventMask = 0 ∧ s.ie &&& ~~~eventMask = 0
  /-- F_INV is set exactly in FAULT (R170, R171). -/
  fInv : s.event.getLsbD 8 = true ↔ s.phase = .fault

/-- `t` is reached from `s` by exactly `n` steps, none of which stops. -/
def State.reaches : Nat → State → State → Prop
  | 0, s, t => s = t
  | n + 1, s, t => ∃ u, step s = .next u ∧ State.reaches n u t

/-- What a host observes after a step: what a read returned, and the level of `irq` (R12). -/
def State.observed (s : State) : Option Word × Bool := (s.reply, irq s)

/-- A state with its working state zeroised: all of it that a host can ever learn (R35). -/
def State.withoutWork (s : State) : State := { s with wrk := Working.zero }

/-- The outcome of a step with the working state of the next state zeroised. -/
def outcomeWithoutWork : Host.Outcome State Fault Refusal → Host.Outcome State Fault Refusal
  | .next t => .next t.withoutWork
  | .fault r => .fault r
  | .refused r => .refused r

/-- A byte address that is misaligned (spec/20_memory.md R51) or in one of the unmapped rows of R53. -/
abbrev badAddr (a : Addr) : Prop :=
  a.toNat % 4 ≠ 0 ∨ (0x030 ≤ a.toNat ∧ a.toNat ≤ 0x0FF) ∨ (0x120 ≤ a.toNat ∧ a.toNat ≤ 0x13F) ∨
    (0x1A0 ≤ a.toNat ∧ a.toNat ≤ 0x1BF) ∨ (0x200 ≤ a.toNat ∧ a.toNat ≤ 0x3FF) ∨
    (0x400 + Config.mnMax ≤ a.toNat ∧ a.toNat ≤ 0x7FF) ∨ (0x800 + Config.ppMax ≤ a.toNat ∧ a.toNat ≤ 0xBFF) ∨
    (0xC00 ≤ a.toNat ∧ a.toNat ≤ 0xFFF)

/-- The aligned address of a register or window that the host cannot write (R53, R59 line 2). -/
abbrev readOnlyAddr (a : Addr) : Prop :=
  a.toNat % 4 = 0 ∧ (a = 0x000 ∨ a = 0x004 ∨ a = 0x00C ∨ a = 0x01C ∨ a = 0x020 ∨
    (0x140 ≤ a.toNat ∧ a.toNat ≤ 0x19F) ∨ (0x1C0 ≤ a.toNat ∧ a.toNat ≤ 0x1FF))

/-- The aligned address of CMD or of an input register or window (R53; spec/60_exceptions.md R166). -/
abbrev inputAddr (a : Addr) : Prop :=
  a.toNat % 4 = 0 ∧ (a = 0x008 ∨ a = 0x018 ∨ a = 0x024 ∨ a = 0x028 ∨ a = 0x02C ∨
    (0x100 ≤ a.toNat ∧ a.toNat ≤ 0x11F) ∨ (0x400 ≤ a.toNat ∧ a.toNat < 0x400 + Config.mnMax) ∨
    (0x800 ≤ a.toNat ∧ a.toNat < 0x800 + Config.ppMax))

/-- A word with one of the faults of spec/30_encoding.md R79. -/
abbrev illegalWord (w : Word) : Prop :=
  w.extractLsb' 11 21 ≠ 0 ∨ 0x06 ≤ (w.extractLsb' 0 8).toNat ∨
    ((w.extractLsb' 0 8).toNat ≤ 0x04 ∧ w.extractLsb' 8 3 ≠ 0)

/-- Bit `i` of the flat bit string `B`, as spec/41_packer.md R111 writes it. -/
def State.bitB (s : State) (i : Nat) : Bool :=
  if i < 8 * s.entN.toNat then (s.ent.get (i / 8)).getLsbD (7 - i % 8)
  else s.cs.getLsbD (7 - (i - 8 * s.entN.toNat))

/-- The index `G[k]`, as R112 writes it. -/
def State.indexG (s : State) (k : Nat) : Nat :=
  ∑ j ∈ Finset.range 11, (s.bitB (11 * k + j)).toNat * 2 ^ (10 - j)

/-- The word whose four bytes stand at `4w` to `4w + 3` of a register file, as spec/20_memory.md R55 writes it. -/
def laneValue (m : Memory) (w : Nat) : Nat :=
  (m.get (4 * w)).toNat + (m.get (4 * w + 1)).toNat * 2 ^ 8 + (m.get (4 * w + 2)).toNat * 2 ^ 16 +
    (m.get (4 * w + 3)).toNat * 2 ^ 24

/-- `U_j` of spec/42_kdf.md R134, for `j` at least 1. -/
def iterateU (p salt : List Byte) (j : Nat) : List Byte :=
  (hmac512 p)^[j - 1] (hmac512 p (salt ++ [0x00, 0x00, 0x00, 0x01]))

/-- The registers a `DERIVE` reads (R141). -/
def State.kdfInputs (s : State) : Memory × Word × Memory × Word × Bool :=
  (s.mn, s.mnLen, s.pp, s.ppLen, s.ppPresent)

/-- The entropy-side inputs. -/
def State.entropyInputs (s : State) : Memory × Word := (s.ent, s.entN)

/-- The outputs of the commands. -/
def State.outputs (s : State) : Byte × BitVec 4 × Bool × Vector (BitVec 11) 24 × BitVec 5 × Bool × Memory × Bool :=
  (s.cs, s.csw, s.csValid, s.idx, s.idxCnt, s.idxValid, s.seed, s.seedValid)

end Sys2Proof.Machine
end

