-- ==== Sys2Proof/Certificates/Slice0/Obligations.lean ====
section
/-! DEFINITION. The statements for the provers, from the numbered rules of spec/. `s.atTurn rest` is the state as the
first turn of the agenda finds it: `rest` still to come and no reply yet. -/

open Sys2Proof Sys2Proof.Machine

/-! ### Encoding (spec/30_encoding.md section 1) -/

/-- R78: the table of legal words, row by row, and their list. -/
def Obligations.CommandWordSelectsItsRow : Prop :=
  ∀ w : Word,
    (decodeWord w = .ok .nop ↔ w &&& 0xFFFFFFFF = 0x00000000) ∧
    (decodeWord w = .ok .csum ↔ w &&& 0xFFFFFFFF = 0x00000001) ∧
    (decodeWord w = .ok .pack ↔ w &&& 0xFFFFFFFF = 0x00000002) ∧
    (decodeWord w = .ok .encode ↔ w &&& 0xFFFFFFFF = 0x00000003) ∧
    (decodeWord w = .ok .derive ↔ w &&& 0xFFFFFFFF = 0x00000004) ∧
    (∀ g : BitVec 3, decodeWord w = .ok (.clear g) ↔ w &&& 0xFFFFF8FF = 0x00000005 ∧ w.extractLsb' 8 3 = g) ∧
    ((∃ i, decodeWord w = .ok i) ↔
      w ∈ [0x00000000#32, 0x00000001#32, 0x00000002#32, 0x00000003#32, 0x00000004#32, 0x00000005#32, 0x00000105#32,
        0x00000205#32, 0x00000305#32, 0x00000405#32, 0x00000505#32, 0x00000605#32, 0x00000705#32])

/-- R162: exactly the illegal words raise E_ILLCMD, before every other check, and nothing else happens. -/
def Obligations.IllegalWordRaisesEIllcmd : Prop :=
  ∀ (s : State) (w : Word) (rest : List Turn), s.phase = .idle → s.agenda = .write 0x008 w :: rest →
    (illegalWord w → step s = .next { s.atTurn rest with event := s.event ||| 0x002 }) ∧
    (¬ illegalWord w → ∃ t, step s = .next t ∧ t.event.getLsbD 1 = s.event.getLsbD 1)

/-- Every instruction's bytes decode to it, whatever follows them. -/
def Obligations.DecodeInvertsEncode : Prop :=
  ∀ (i : Instr) (rest : List Byte), i.wellFormed = true → decode (encodeBytes i ++ rest) = .ok (i, rest)

/-- Every legal word is the word of the instruction it decodes to. -/
def Obligations.EncodeInvertsDecode : Prop :=
  ∀ (w : Word) (i : Instr), decodeWord w = .ok i → encode i = w

/-- A few words of the table of R78 and of the illegal words of R79. -/
def Obligations.SampleWordsDecode : Prop :=
  decodeTableWord 32 0x00000000 = some .nop ∧ decodeTableWord 32 0x00000001 = some .csum ∧
  decodeTableWord 32 0x00000002 = some .pack ∧ decodeTableWord 32 0x00000003 = some .encode ∧
  decodeTableWord 32 0x00000004 = some .derive ∧ decodeTableWord 32 0x00000005 = some (.clear 0) ∧
  decodeTableWord 32 0x00000105 = some (.clear 1) ∧ decodeTableWord 32 0x00000605 = some (.clear 6) ∧
  decodeTableWord 32 0x00000006 = none ∧ decodeTableWord 32 0x00000101 = none ∧ decodeTableWord 32 0x00000805 = none

/-! ### A step runs the decoded instruction -/

/-- In IDLE the write of a legal word to CMD is the instruction it decodes to (R81, R82). -/
def Obligations.StepRunsTheWrittenCommand : Prop :=
  ∀ (s : State) (w : Word) (i : Instr) (rest : List Turn),
    s.phase = .idle → s.agenda = .write 0x008 w :: rest → decodeWord w = .ok i →
      step s = exec i (s.atTurn rest)

/-- In RUN the engine's turn, on the agenda or when nothing is left to come, is the instruction in flight (R84). That
it comes at the latest then is the model's choice (log entry 1). -/
def Obligations.StepRunsTheCommandInFlight : Prop :=
  ∀ (s : State) (i : Instr), s.phase = .run → decodeWord s.cmd = .ok i →
    (∀ rest, s.agenda = .complete :: rest → step s = exec i (s.atTurn rest)) ∧
    (s.agenda = [] → step s = exec i (s.atTurn []))

/-- The placed command word is the very next instruction (log entry 4: the model's choice). -/
def Obligations.PlacedWordIsTheNextInstruction : Prop :=
  ∀ (s : State) (i : Instr), i.wellFormed = true →
    step (s.withFetchWord 32 (encode i).toNat) = exec i (State.atTurn { s with phase := .idle, cmd := 0 } s.agenda)

/-! ### Reset (spec/10_state.md section 6, spec/70_reset_and_hazards.md section 1) -/

/-- R43: every row of the table of reset values. -/
def Obligations.ResetValues : Prop :=
  (∀ i, State.reset.ent.get i = 0x00) ∧ State.reset.entN = 0 ∧
  State.reset.cs = 0 ∧ State.reset.csw = 0 ∧ State.reset.csValid = false ∧
  (∀ k : Fin 24, State.reset.idx[k] = 0) ∧ State.reset.idxCnt = 0 ∧ State.reset.idxValid = false ∧
  (∀ i, State.reset.mn.get i = 0x00) ∧ State.reset.mnLen = 0 ∧
  (∀ i, State.reset.pp.get i = 0x00) ∧ State.reset.ppLen = 0 ∧ State.reset.ppPresent = false ∧
  (∀ i, State.reset.seed.get i = 0x00) ∧ State.reset.seedValid = false ∧
  State.reset.phase = .idle ∧ State.reset.cmd = 0 ∧ State.reset.lastop = 0x00 ∧
  State.reset.event = 0 ∧ State.reset.ie = 0 ∧ irq State.reset = false ∧ State.reset.wrk = Working.zero ∧
  readTarget State.reset .id = 0x50425331 ∧ readTarget State.reset .cap = 0x04000400 ∧
  readTarget State.reset .status = 0x00000000

/-- R190: reset in any state gives the reset state; the turns still to come stay (log entry 10). -/
def Obligations.ResetFromEveryState : Prop :=
  ∀ (s : State) (rest : List Turn), s.agenda = .reset :: rest →
    step s = .next { State.reset with agenda := rest }

/-! ### Invariants of every step (spec/10_state.md section 4) -/

/-- The reset state satisfies the invariants. -/
def Obligations.ResetStateIsInvariant : Prop := State.Inv State.reset

/-- Every step keeps the invariants of R36. -/
def Obligations.EveryStepKeepsTheInvariants : Prop :=
  ∀ s t : State, s.Inv → step s = .next t → t.Inv

/-- From the invariants no step stops the model, and no assertion ever fails (R115). -/
def Obligations.NoStepStopsOrFaults : Prop :=
  ∀ s : State, s.Inv → ∃ t, step s = .next t ∧ (t.phase = .fault → s.phase = .fault)

/-- Every step keeps the form of the register files, whatever else holds (log entry 7). -/
def Obligations.EveryStepKeepsTheMemoryForm : Prop :=
  ∀ s t : State, s.MemoryInv → step s = .next t → t.MemoryInv

/-- R36 item 6, step by step: a valid seed is the one held, with its inputs untouched but by a completing CLEAR KDFIN,
or is the result of a completing DERIVE. -/
def Obligations.SeedComesFromDerive : Prop :=
  ∀ s t : State, s.Inv → step s = .next t → t.seedValid = true →
    (s.seedValid = true ∧ t.seed = s.seed ∧
      (t.kdfInputs = s.kdfInputs ∨
        (s.phase = .run ∧ ∃ g : BitVec 3, s.cmd = encode (.clear g) ∧ g.getLsbD 1 = true))) ∨
    (s.phase = .run ∧ s.cmd = encode .derive ∧ t.kdfInputs = s.kdfInputs ∧
      ∀ i < 64, t.seed.get i = (pbkdf2 (password s) (salt s)).getD i 0)

/-- Reset is the only exit from FAULT, and nothing but EVENT, IE and the reply changes there (R171, R192). -/
def Obligations.OnlyResetLeavesFault : Prop :=
  ∀ s t : State, s.phase = .fault → step s = .next t →
    (∃ rest, s.agenda = .reset :: rest ∧ t = { State.reset with agenda := rest }) ∨
    (t = { s with event := t.event, ie := t.ie, agenda := s.agenda.tail, reply := t.reply } ∧
      t.event.getLsbD 8 = s.event.getLsbD 8)

/-- In flight, a turn of the host or an internal step leaves every register but EVENT, IE and WRK (R67, R83, R87). -/
def Obligations.RegistersFrozenInFlight : Prop :=
  ∀ (s t : State) (u : Turn) (rest : List Turn), s.phase = .run → s.agenda = u :: rest → u ≠ .complete → u ≠ .reset →
    step s = .next t →
      t = { s with event := t.event, ie := t.ie, wrk := t.wrk, agenda := rest, reply := t.reply } ∧
      (u ≠ .work → t.wrk = s.wrk)

/-- LASTOP changes at an accept and at reset alone (R82, R161, R190). -/
def Obligations.LastopChangesOnlyAtAccept : Prop :=
  ∀ s t : State, step s = .next t → t.lastop ≠ s.lastop →
    (∃ rest, s.agenda = .reset :: rest) ∨
    (∃ i rest, s.agenda = .write 0x008 (encode i) :: rest ∧ s.phase = .idle ∧ t.phase = .run ∧ t.cmd = encode i ∧
      t.lastop = (encode i).extractLsb' 0 8)

/-- One transaction of the host sets at most one EVENT bit (R168). -/
def Obligations.OneEventBitPerTransaction : Prop :=
  ∀ (s t : State) (u : Turn) (rest : List Turn), s.agenda = u :: rest →
    ((∃ a, u = .read a) ∨ ∃ a v, u = .write a v) → step s = .next t →
      ∀ n m : Nat, t.event.getLsbD n = true → s.event.getLsbD n = false →
        t.event.getLsbD m = true → s.event.getLsbD m = false → n = m

/-- An accepted command leaves RUN after at most one step more than there are turns to come (R85). That nothing is left
to come at the engine's turn is the model's choice (log entry 1). -/
def Obligations.AcceptedCommandLeavesRun : Prop :=
  ∀ s : State, s.Inv → s.phase = .run →
    ∃ n t, n ≤ s.agenda.length + 1 ∧ State.reaches n s t ∧ t.phase ≠ .run

/-! ### Errors and the fault entry (spec/60_exceptions.md) -/

/-- R163. -/
def Obligations.UnsupportedLengthRaisesECfg : Prop :=
  (∀ s : State, s.phase = .idle →
    (s.entN ∉ [16#32, 20#32, 24#32, 28#32, 32#32] →
      exec .csum s = .next { s with event := s.event ||| 0x004 } ∧
      exec .pack s = .next { s with event := s.event ||| 0x004 } ∧
      exec .encode s = .next { s with event := s.event ||| 0x004 }) ∧
    (s.entN ∈ [16#32, 20#32, 24#32, 28#32, 32#32] → ∀ i ∈ [Instr.csum, Instr.pack, Instr.encode],
      ∃ t, exec i s = .next t ∧ t.event.getLsbD 2 = s.event.getLsbD 2)) ∧
  (∀ (s : State) (v : Word) (rest : List Turn), s.phase = .idle → s.agenda = .write 0x018 v :: rest →
    ∃ t, step s = .next t ∧ t.entN = v ∧ t.event = s.event)

/-- R164. -/
def Obligations.PackWithoutChecksumRaisesESeq : Prop :=
  ∀ s : State, s.phase = .idle → s.entN ∈ [16#32, 20#32, 24#32, 28#32, 32#32] → s.csValid = false →
    exec .pack s = .next { s with event := s.event ||| 0x008 }

/-- R165: a length above its buffer is rejected, anything else is accepted. -/
def Obligations.OverlongTextRaisesELen : Prop :=
  ∀ s : State, s.phase = .idle →
    ((Config.mnMax < s.mnLen.toNat ∨ (s.ppPresent = true ∧ Config.ppMax < s.ppLen.toNat)) →
      exec .derive s = .next { s with event := s.event ||| 0x010 }) ∧
    (¬ (Config.mnMax < s.mnLen.toNat ∨ (s.ppPresent = true ∧ Config.ppMax < s.ppLen.toNat)) →
      exec .derive s = .next { s with seed := [], seedValid := false, lastop := 0x04, phase := .run, cmd := 4 })

/-- R170: what the fault entry does to each register. -/
def Obligations.FaultEntryZeroisesEverything : Prop :=
  ∀ s : State, s.phase = .run → 4 * s.csw.toNat ≠ s.entN.toNat →
    exec .pack s = .next
      { ent := [], entN := 0, cs := 0, csw := 0, csValid := false, idx := zeroIdx, idxCnt := 0, idxValid := false,
        mn := [], mnLen := 0, pp := [], ppLen := 0, ppPresent := false, seed := [], seedValid := false,
        lastop := s.lastop, event := s.event ||| 0x100, ie := s.ie, phase := .fault, cmd := 0, wrk := Working.zero,
        agenda := s.agenda, reply := s.reply }

/-- The completions that stop the model, exactly: those of the operands given here, which log entry 8 names, and of a
word in flight that is no command's, which log entry 9 names. Both are the model's choice, in states no accept leaves.
Not every operand that a pre-check refuses stops a completion: `PACK` with `ENT_N = 12` and `CSW = 3` commits its
groups. -/
def Obligations.CorruptedCommandsStopTheModel : Prop :=
  ∀ s : State, s.phase = .run →
    (exec .csum s = .fault .operandsRefused ↔ s.entN ∉ [16#32, 20#32, 24#32, 28#32, 32#32]) ∧
    (exec .encode s = .fault .operandsRefused ↔ s.entN ∉ [16#32, 20#32, 24#32, 28#32, 32#32]) ∧
    (exec .pack s = .fault .operandsRefused ↔ 4 * s.csw.toNat = s.entN.toNat ∧ 32 < s.entN.toNat) ∧
    (exec .derive s = .fault .operandsRefused ↔
      Config.mnMax < s.mnLen.toNat ∨ (s.ppPresent = true ∧ Config.ppMax < s.ppLen.toNat)) ∧
    (s.agenda = [] → (step s = .fault .illegalInFlight ↔ illegalWord s.cmd))

/-! ### The port (spec/20_memory.md) and the status registers (spec/10_state.md section 3) -/

/-- R58: what a read does and returns, register by register of R53, and what reads zero in RUN and in FAULT. -/
def Obligations.ReadTransaction : Prop :=
  ∀ (s : State) (a : Addr) (rest : List Turn), s.agenda = .read a :: rest →
    (badAddr a → step s = .next { s.atTurn rest with event := s.event ||| 0x040, reply := some 0 }) ∧
    (¬ badAddr a → ∃ v : Word, step s = .next { s.atTurn rest with reply := some v } ∧
      (a = 0x000 → v = 0x50425331) ∧
      (a = 0x004 → v.toNat = Config.mnMax + Config.ppMax * 2 ^ 16) ∧
      (a = 0x008 → v = 0) ∧
      (a = 0x00C → v = statusWord s) ∧
      (a = 0x010 → v = (s.event &&& 0x17F).zeroExtend 32) ∧
      (a = 0x014 → v = (s.ie &&& 0x17F).zeroExtend 32) ∧
      (a = 0x018 → v = s.entN) ∧
      (a = 0x01C → v = csumOutWord s) ∧
      (a = 0x020 → v.toNat = s.idxCnt.toNat) ∧
      (a = 0x024 → v = s.mnLen) ∧
      (a = 0x028 → v = s.ppLen) ∧
      (a = 0x02C → v.toNat = s.ppPresent.toNat) ∧
      (∀ w < 8, a.toNat = 0x100 + 4 * w → v.toNat = laneValue s.ent w) ∧
      (∀ k : Fin 24, a.toNat = 0x140 + 4 * k.val → v.toNat = s.idx[k].toNat) ∧
      (∀ w < 16, a.toNat = 0x1C0 + 4 * w → v.toNat = laneValue s.seed w) ∧
      (∀ w < Config.mnMax / 4, a.toNat = 0x400 + 4 * w → v.toNat = laneValue s.mn w) ∧
      (∀ w < Config.ppMax / 4, a.toNat = 0x800 + 4 * w → v.toNat = laneValue s.pp w) ∧
      (s.Inv → s.phase = .fault → 0x018 ≤ a.toNat → v = 0) ∧
      (s.Inv → s.phase = .run →
        (s.cmd = encode .csum ∨ s.cmd = encode .encode → a = 0x01C → v = 0) ∧
        (s.cmd = encode .csum ∨ s.cmd = encode .pack ∨ s.cmd = encode .encode →
          a = 0x020 ∨ (0x140 ≤ a.toNat ∧ a.toNat ≤ 0x19F) → v = 0) ∧
        (s.cmd = encode .derive → 0x1C0 ≤ a.toNat ∧ a.toNat ≤ 0x1FF → v = 0)))

/-- R59: the fourteen lines. -/
def Obligations.WriteTransaction : Prop :=
  ∀ (s : State) (a : Addr) (v : Word) (rest : List Turn), s.agenda = .write a v :: rest →
    (badAddr a → step s = .next { s.atTurn rest with event := s.event ||| 0x040 }) ∧
    (readOnlyAddr a → step s = .next { s.atTurn rest with event := s.event ||| 0x040 }) ∧
    (a = 0x010 → step s =
      .next { s.atTurn rest with event := s.event &&& ~~~((v.extractLsb' 0 7).zeroExtend 9) }) ∧
    (a = 0x014 → step s = .next { s.atTurn rest with ie := (v &&& 0x0000017F).truncate 9 }) ∧
    (inputAddr a → s.phase = .fault → step s = .next (s.atTurn rest)) ∧
    (inputAddr a → s.phase = .run → step s = .next { s.atTurn rest with event := s.event ||| 0x020 }) ∧
    (s.phase = .idle →
      (a = 0x008 → ∀ e, decodeWord v = .error e →
        step s = .next { s.atTurn rest with event := s.event ||| 0x002 }) ∧
      (a = 0x008 → ∀ i, decodeWord v = .ok i → step s = exec i (s.atTurn rest)) ∧
      (a = 0x018 → step s = .next { s.atTurn rest with
        entN := v, cs := 0, csw := 0, csValid := false, idx := zeroIdx, idxCnt := 0, idxValid := false }) ∧
      (∀ w < 8, a.toNat = 0x100 + 4 * w → step s = .next { s.atTurn rest with
        ent := s.ent.setWord w v,
        cs := 0, csw := 0, csValid := false, idx := zeroIdx, idxCnt := 0, idxValid := false }) ∧
      (a = 0x024 → step s = .next { s.atTurn rest with mnLen := v, seed := [], seedValid := false }) ∧
      (a = 0x028 → step s = .next { s.atTurn rest with ppLen := v, seed := [], seedValid := false }) ∧
      (a = 0x02C → step s = .next { s.atTurn rest with
        ppPresent := v.getLsbD 0, seed := [], seedValid := false }) ∧
      (∀ w < Config.mnMax / 4, a.toNat = 0x400 + 4 * w → step s = .next { s.atTurn rest with
        mn := s.mn.setWord w v, seed := [], seedValid := false }) ∧
      (∀ w < Config.ppMax / 4, a.toNat = 0x800 + 4 * w → step s = .next { s.atTurn rest with
        pp := s.pp.setWord w v, seed := [], seedValid := false }))

/-- R55: a word written to a byte window in IDLE puts its lanes in the four bytes and in no other, and reads back; the
read-only window SEED reads its four bytes in the same lanes. -/
def Obligations.ByteLanesOfTheWindows : Prop :=
  ∀ (s : State) (v : Word) (w : Nat), s.phase = .idle → s.MemoryInv →
    (w < 8 → s.agenda = [.write (BitVec.ofNat 12 (0x100 + 4 * w)) v, .read (BitVec.ofNat 12 (0x100 + 4 * w))] →
      ∃ t, State.reaches 2 s t ∧ t.reply = some v ∧
        ∀ i, t.ent.get i = if i / 4 = w then v.extractLsb' (8 * (i % 4)) 8 else s.ent.get i) ∧
    (w < Config.mnMax / 4 →
      s.agenda = [.write (BitVec.ofNat 12 (0x400 + 4 * w)) v, .read (BitVec.ofNat 12 (0x400 + 4 * w))] →
      ∃ t, State.reaches 2 s t ∧ t.reply = some v ∧
        ∀ i, t.mn.get i = if i / 4 = w then v.extractLsb' (8 * (i % 4)) 8 else s.mn.get i) ∧
    (w < Config.ppMax / 4 →
      s.agenda = [.write (BitVec.ofNat 12 (0x800 + 4 * w)) v, .read (BitVec.ofNat 12 (0x800 + 4 * w))] →
      ∃ t, State.reaches 2 s t ∧ t.reply = some v ∧
        ∀ i, t.pp.get i = if i / 4 = w then v.extractLsb' (8 * (i % 4)) 8 else s.pp.get i) ∧
    (w < 16 → s.agenda = [.read (BitVec.ofNat 12 (0x1C0 + 4 * w))] →
      ∃ t x, State.reaches 1 s t ∧ t.reply = some x ∧ x.toNat = laneValue s.seed w)

/-- A read repeated with nothing in between returns the same value (R65). -/
def Obligations.ReadsAreIdempotent : Prop :=
  ∀ (s : State) (a : Addr) (rest : List Turn), s.agenda = .read a :: .read a :: rest →
    ∃ t u, step s = .next t ∧ step t = .next u ∧ u.reply = t.reply ∧ t.reply ≠ none

/-- A write of EVENT clears the bits 6:0 that are written as one, in every phase, and nothing else changes (R32). -/
def Obligations.EventIsWriteOneToClear : Prop :=
  ∀ (s : State) (v : Word) (rest : List Turn), s.agenda = .write 0x010 v :: rest →
    ∃ t, step s = .next t ∧ t = { s.atTurn rest with event := t.event } ∧
      ∀ n, t.event.getLsbD n = (s.event.getLsbD n && !(decide (n < 7) && v.getLsbD n))

/-- R33: a write of IE, in every phase, stores bits 6:0 and 8 alone, the register reads them back, and reset clears
it. -/
def Obligations.InterruptEnableRegister : Prop :=
  (∀ (s : State) (v : Word), s.agenda = [.write 0x014 v, .read 0x014] →
    ∃ t, State.reaches 2 s t ∧ t.reply = some (v &&& 0x0000017F) ∧
      t = { s with ie := t.ie, agenda := [], reply := t.reply } ∧
      ∀ n, t.ie.getLsbD n = ((decide (n ≤ 6) || decide (n = 8)) && v.getLsbD n)) ∧
  State.reset.ie = 0 ∧
  (∀ s : State, irq s = true ↔ (eventWord s &&& ieWord s) ≠ 0)

/-- R42: the interrupt output, bit by bit of EVENT and IE. -/
def Obligations.InterruptOutputLevel : Prop :=
  ∀ s : State, irq s = true ↔
    ∃ n, n < 9 ∧ n ≠ 7 ∧ s.event.getLsbD n = true ∧ s.ie.getLsbD n = true

/-- R31: the fields of STATUS, which are never BUSY and FAULT together, are zero at reset and cannot be written. -/
def Obligations.StatusRegisterFields : Prop :=
  (∀ (s : State) (n : Nat), (readTarget s .status).getLsbD n =
    if n = 0 then decide (s.phase = .run)
    else if n = 1 then decide (s.phase = .fault)
    else if n = 2 then s.csValid
    else if n = 3 then s.idxValid
    else if n = 4 then s.seedValid
    else if 8 ≤ n ∧ n ≤ 15 then s.lastop.getLsbD (n - 8)
    else false) ∧
  readTarget State.reset .status = 0 ∧
  (∀ (s : State) (v : Word) (rest : List Turn), s.agenda = .write 0x00C v :: rest →
    step s = .next { s.atTurn rest with event := s.event ||| 0x040 })

/-- The fields of CSUM_OUT (R25). -/
def Obligations.ChecksumRegisterFields : Prop :=
  ∀ s : State, s.csw.toNat ≤ 8 →
    (readTarget s .csumOut).toNat = s.cs.toNat + s.csw.toNat * 2 ^ 8 +
      (if s.csw = 0 then 0 else s.cs.toNat / 2 ^ (8 - s.csw.toNat)) * 2 ^ 16

/-- While a command is in flight the registers of its output group read zero (R67 item d). -/
def Obligations.OutputsReadZeroInFlight : Prop :=
  ∀ s : State, s.Inv → s.phase = .run →
    (s.cmd = encode .csum ∨ s.cmd = encode .encode → readTarget s .csumOut = 0) ∧
    (s.cmd = encode .csum ∨ s.cmd = encode .pack ∨ s.cmd = encode .encode →
      readTarget s .idxCnt = 0 ∧ ∀ k, readTarget s (.idx k) = 0) ∧
    (s.cmd = encode .derive → ∀ w, readTarget s (.seed w) = 0)

/-! ### The commands -/

/-- R82: the accept of each command, its pre-checks passed. -/
def Obligations.AcceptStartsTheCommand : Prop :=
  ∀ s : State, s.phase = .idle →
    exec .nop s = .next { s with lastop := 0x00, phase := .run, cmd := 0x00000000 } ∧
    (s.entN ∈ [16#32, 20#32, 24#32, 28#32, 32#32] →
      exec .csum s = .next { s with
        lastop := 0x01, phase := .run, cmd := 0x00000001,
        cs := 0, csw := 0, csValid := false, idx := zeroIdx, idxCnt := 0, idxValid := false } ∧
      exec .encode s = .next { s with
        lastop := 0x03, phase := .run, cmd := 0x00000003,
        cs := 0, csw := 0, csValid := false, idx := zeroIdx, idxCnt := 0, idxValid := false }) ∧
    (s.entN ∈ [16#32, 20#32, 24#32, 28#32, 32#32] → s.csValid = true →
      exec .pack s = .next { s with
        lastop := 0x02, phase := .run, cmd := 0x00000002, idx := zeroIdx, idxCnt := 0, idxValid := false }) ∧
    (s.mnLen.toNat ≤ Config.mnMax → (s.ppPresent = true → s.ppLen.toNat ≤ Config.ppMax) →
      exec .derive s = .next { s with
        lastop := 0x04, phase := .run, cmd := 0x00000004, seed := [], seedValid := false }) ∧
    (∀ g : BitVec 3, exec (.clear g) s = .next { s with
      lastop := 0x05, phase := .run, cmd := 0x00000005 ||| (g.zeroExtend 32 <<< 8) })

/-- R150: NOP at its accept and at its completion, and the rule's example from reset. -/
def Obligations.NopCompletes : Prop :=
  (∀ s : State, s.phase = .idle → exec .nop s = .next { s with lastop := 0x00, phase := .run, cmd := 0 }) ∧
  (∀ s : State, s.phase = .run →
    exec .nop s = .next { s with wrk := Working.zero, phase := .idle, cmd := 0, event := s.event ||| 0x001 }) ∧
  (∃ t, State.reaches 2 { State.reset with agenda := [.write 0x008 0, .complete] } t ∧
    statusWord t = 0x00000000 ∧ eventWord t = 0x00000001)

/-- R103: the extraction keeps the top `cw` bits of the digest's first byte and clears the others. -/
def Obligations.ExtractionKeepsTheTopBits : Prop :=
  ∀ (d : List Byte) (cw : Nat), 1 ≤ cw → cw ≤ 8 →
    (∀ n, (csx d cw).getLsbD n = (decide (8 - cw ≤ n) && (d.headD 0).getLsbD n)) ∧
    csx d cw >>> (8 - cw) = d.headD 0 >>> (8 - cw) ∧ (csx d cw >>> (8 - cw)).toNat ≤ 2 ^ cw - 1

/-- The completion of CSUM (R104): the width, the checksum of the entropy bytes, and nothing else but the common
completion. -/
def Obligations.CsumCommitsTheChecksum : Prop :=
  ∀ s : State, s.phase = .run → s.entN ∈ [16#32, 20#32, 24#32, 28#32, 32#32] →
    ∃ t, exec .csum s = .next t ∧
      t = { s with csw := t.csw, cs := t.cs, csValid := true,
                   wrk := Working.zero, phase := .idle, cmd := 0, event := s.event ||| 0x001 } ∧
      t.csw.toNat = s.entN.toNat / 4 ∧
      ∀ n, t.cs.getLsbD n = (decide (8 - s.entN.toNat / 4 ≤ n) &&
        ((sha256 ((List.range s.entN.toNat).map s.ent.get)).headD 0).getLsbD n)

/-- The completion of PACK with a checksum of its width (R114): the groups of R112, the count, and nothing else but the
common completion. -/
def Obligations.PackCommitsTheGroups : Prop :=
  ∀ s : State, s.phase = .run → 4 * s.csw.toNat = s.entN.toNat → s.entN.toNat ≤ 32 →
    ∃ t, exec .pack s = .next t ∧
      t = { s with idx := t.idx, idxCnt := t.idxCnt, idxValid := true,
                   wrk := Working.zero, phase := .idle, cmd := 0, event := s.event ||| 0x001 } ∧
      t.idxCnt.toNat = 3 * s.entN.toNat / 4 ∧
      ∀ k : Fin 24, t.idx[k].toNat = if k.val < 3 * s.entN.toNat / 4 then s.indexG k.val else 0

/-- The completion of ENCODE (R116): CSUM's results, then the groups computed from them. -/
def Obligations.EncodeCommitsBothResults : Prop :=
  ∀ s : State, s.phase = .run → s.entN ∈ [16#32, 20#32, 24#32, 28#32, 32#32] →
    ∃ t, exec .encode s = .next t ∧
      t = { s with csw := t.csw, cs := t.cs, csValid := true, idx := t.idx, idxCnt := t.idxCnt, idxValid := true,
                   wrk := Working.zero, phase := .idle, cmd := 0, event := s.event ||| 0x001 } ∧
      t.csw.toNat = s.entN.toNat / 4 ∧
      t.cs = csx (sha256 ((List.range s.entN.toNat).map s.ent.get)) (s.entN.toNat / 4) ∧
      t.idxCnt.toNat = 3 * s.entN.toNat / 4 ∧
      ∀ k : Fin 24, t.idx[k].toNat = if k.val < 3 * s.entN.toNat / 4 then t.indexG k.val else 0

/-- R116 corner case 1: ENCODE leaves what CSUM and then PACK leave, but for LASTOP. -/
def Obligations.EncodeIsCsumThenPack : Prop :=
  ∀ s : State, s.phase = .idle → s.entN ∈ [16#32, 20#32, 24#32, 28#32, 32#32] →
    ∃ t u,
      State.reaches 4 { s with agenda := [.write 0x008 1, .complete, .write 0x008 2, .complete] } t ∧
      State.reaches 2 { s with agenda := [.write 0x008 3, .complete] } u ∧
      t.lastop = 0x02 ∧ u = { t with lastop := 0x03 }

/-- R117: the groups as one whole-number formula. -/
def Obligations.IndicesAsOneInteger : Prop :=
  ∀ s : State, s.entN ∈ [16#32, 20#32, 24#32, 28#32, 32#32] → s.csw.toNat = s.entN.toNat / 4 →
    ∀ k < 3 * s.entN.toNat / 4,
      group (flatBits s) k =
        (fromBE (entropy s) * 2 ^ (s.entN.toNat / 4) + s.cs.toNat / 2 ^ (8 - s.entN.toNat / 4)) /
          2 ^ (11 * (3 * s.entN.toNat / 4 - 1 - k)) % 2048

/-- R118: two entropies of one length with the same indices are the same entropy. -/
def Obligations.IndicesDetermineTheEntropy : Prop :=
  ∀ s t : State, s.entN ∈ [16#32, 20#32, 24#32, 28#32, 32#32] → t.entN = s.entN →
    s.csw.toNat = s.entN.toNat / 4 → t.csw.toNat = t.entN.toNat / 4 →
    groups (flatBits s) = groups (flatBits t) → entropy s = entropy t

/-- The completion of DERIVE (R141): the 64 seed bytes, and nothing else but the common completion. -/
def Obligations.DeriveCommitsTheSeed : Prop :=
  ∀ s : State, s.phase = .run → s.MemoryInv → s.mnLen.toNat ≤ Config.mnMax →
    (s.ppPresent = true → s.ppLen.toNat ≤ Config.ppMax) →
    ∃ t, exec .derive s = .next t ∧
      t = { s with seed := t.seed, seedValid := true,
                   wrk := Working.zero, phase := .idle, cmd := 0, event := s.event ||| 0x001 } ∧
      ∀ i < 64, t.seed.get i =
        (pbkdf2 ((List.range s.mnLen.toNat).map s.mn.get)
          ([0x6D, 0x6E, 0x65, 0x6D, 0x6F, 0x6E, 0x69, 0x63] ++
            (if s.ppPresent then (List.range s.ppLen.toNat).map s.pp.get else []))).getD i 0

/-- R134: byte by byte, the seed is the exclusive or of U_1 to U_2048, where U_(j+1) is the HMAC of U_j. -/
def Obligations.SeedIsTheXorOfTheIterates : Prop :=
  ∀ (p salt : List Byte), (pbkdf2 p salt).length = 64 ∧
    ∀ i < 64, (pbkdf2 p salt).getD i 0 =
      (List.range 2048).foldl (fun acc j => acc ^^^ (iterateU p salt (j + 1)).getD i 0) 0

/-- R139: the salt; an absent passphrase and an empty one give the same. -/
def Obligations.SaltOfThePassphrase : Prop :=
  ∀ s : State,
    (s.ppPresent = true → salt s =
      [0x6D, 0x6E, 0x65, 0x6D, 0x6F, 0x6E, 0x69, 0x63] ++ (List.range s.ppLen.toNat).map s.pp.get) ∧
    (s.ppPresent = false → salt s = [0x6D, 0x6E, 0x65, 0x6D, 0x6F, 0x6E, 0x69, 0x63]) ∧
    (s.ppLen = 0 → salt { s with ppPresent := true } = salt { s with ppPresent := false })

/-- R152: CLEAR at its accept and at its completion, group by group of its mask. -/
def Obligations.ClearZeroisesItsGroups : Prop :=
  ∀ (s : State) (g : BitVec 3),
    (s.phase = .idle → exec (.clear g) s = .next { s with
      lastop := 0x05, phase := .run, cmd := 0x00000005 ||| (g.zeroExtend 32 <<< 8) }) ∧
    (s.phase = .run → exec (.clear g) s = .next { s with
      ent := if g.getLsbD 0 then [] else s.ent
      entN := if g.getLsbD 0 then 0 else s.entN
      cs := if g.getLsbD 0 then 0 else s.cs
      csw := if g.getLsbD 0 then 0 else s.csw
      csValid := if g.getLsbD 0 then false else s.csValid
      idx := if g.getLsbD 0 then zeroIdx else s.idx
      idxCnt := if g.getLsbD 0 then 0 else s.idxCnt
      idxValid := if g.getLsbD 0 then false else s.idxValid
      mn := if g.getLsbD 1 then [] else s.mn
      mnLen := if g.getLsbD 1 then 0 else s.mnLen
      pp := if g.getLsbD 1 then [] else s.pp
      ppLen := if g.getLsbD 1 then 0 else s.ppLen
      ppPresent := if g.getLsbD 1 then false else s.ppPresent
      seed := if g.getLsbD 2 then [] else s.seed
      seedValid := if g.getLsbD 2 then false else s.seedValid
      wrk := Working.zero
      phase := .idle
      cmd := 0
      event := s.event ||| 0x001 })

/-! ### Hash functions -/

/-- R98: the padding of SHA-256 and its least number of zero bytes. -/
def Obligations.PaddingOfSha256 : Prop :=
  ∀ len : Nat, ∃ z, padding 32 len = [0x80] ++ List.replicate z 0x00 ++ be 8 (8 * len) ∧
    (len + 1 + z + 8) % 64 = 0 ∧ ∀ y < z, (len + 1 + y + 8) % 64 ≠ 0

/-- R129: the padding of SHA-512, its least number of zero bytes, its number of blocks, and the upper half of the length
field, zero for every message of the engine. -/
def Obligations.PaddingOfSha512 : Prop :=
  ∀ len : Nat, ∃ z, padding 64 len = [0x80] ++ List.replicate z 0x00 ++ be 16 (8 * len) ∧
    (len + 1 + z + 16) % 128 = 0 ∧ (∀ y < z, (len + 1 + y + 16) % 128 ≠ 0) ∧
    (len + (padding 64 len).length) / 128 = (len + 144) / 128 ∧
    (len ≤ 128 + 8 + Config.ppMax + 4 → be 16 (8 * len) = List.replicate 8 0x00 ++ be 8 (8 * len))

/-- R102: the entropy pads to one block, and its hash is one compression. -/
def Obligations.EntropyIsOneBlock : Prop :=
  ∀ e : List Byte, e.length ∈ [16, 20, 24, 28, 32] →
    sha256 e = digest (compress sha256Spec sha256Spec.init
      (e ++ [0x80] ++ List.replicate (55 - e.length) 0x00 ++ be 8 (8 * e.length)))

/-- R132: HMAC from the key and the message, both cases of the key's length. -/
def Obligations.HmacOfKeyAndMessage : Prop :=
  ∀ k m : List Byte, (hmac512 k m).length = 64 ∧
    ∀ k0 : List Byte, (128 < k.length → k0 = sha512 k) → (k.length ≤ 128 → k0 = k) →
      hmac512 k m =
        sha512 ((k0 ++ List.replicate (128 - k0.length) 0x00).map (· ^^^ 0x5C) ++
          sha512 ((k0 ++ List.replicate (128 - k0.length) 0x00).map (· ^^^ 0x36) ++ m))

/-- R133: computing the two pad blocks once changes no result. -/
def Obligations.HmacFromPadStates : Prop :=
  ∀ k m : List Byte,
    hmacFrom (padState (ipad (keyBlock k))) (padState (opad (keyBlock k))) m = hmac512 k m

/-! ### What cannot be told apart -/

/-- R87, in the internal steps and the form of WRK that are the model's choice (log entry 6): from the accept of DERIVE,
`n` internal steps leave the accumulator at `U_1 ^ ... ^ U_n` and touch nothing but WRK; after 2048 of them it is the
seed the completion commits. -/
def Obligations.InternalStepsComputeTheSeed : Prop :=
  ∀ (s : State) (n : Nat), s.phase = .run → s.cmd = 0x00000004 → s.wrk = Working.zero → 1 ≤ n → n ≤ 2048 →
    s.agenda = List.replicate n .work →
    ∃ t, State.reaches n s t ∧ t = { s with wrk := t.wrk, agenda := [], reply := none } ∧
      t.wrk.iter.toNat = n ∧ t.wrk.u = (kdfAfter (password s) (salt s) n).1 ∧
      t.wrk.t = (kdfAfter (password s) (salt s) n).2 ∧
      (n = 2048 → t.wrk.t = pbkdf2 (password s) (salt s))

/-- Nothing a host can learn depends on WRK (R35): two states that differ in it step to states that differ in it at
most. -/
def Obligations.WorkingStateIsUnobservable : Prop :=
  ∀ (s : State) (k : Working),
    outcomeWithoutWork (step { s with wrk := k }) = outcomeWithoutWork (step s)

/-- Buffer bytes beyond the length registers, and an absent passphrase, change no result (R22, R27, R28). -/
def Obligations.IgnoredBytesChangeNoResult : Prop :=
  ∀ (s : State) (e m p : Memory) (i : Instr) (t : State),
    (∀ n < s.entN.toNat, e.get n = s.ent.get n) →
    (∀ n < s.mnLen.toNat, m.get n = s.mn.get n) →
    (s.ppPresent = true → ∀ n < s.ppLen.toNat, p.get n = s.pp.get n) →
    exec i s = .next t →
      ∃ u, exec i { s with ent := e, mn := m, pp := p } = .next u ∧
        u = { t with ent := u.ent, mn := u.mn, pp := u.pp }
end

