-- ==== Sys2Proof/Laws/AddressMap.lean ====
section
/-! SUPPORT. The address map read in both directions: what an address selects stands at that address, and a register
or a word of a window is selected by its address. -/

namespace Sys2Proof.Machine

/-- The byte address of a register or of a word of a window (R53). -/
def Target.offset : Target → Nat
  | .id => 0x000
  | .cap => 0x004
  | .cmd => 0x008
  | .status => 0x00C
  | .event => 0x010
  | .ie => 0x014
  | .entN => 0x018
  | .csumOut => 0x01C
  | .idxCnt => 0x020
  | .mnLen => 0x024
  | .ppLen => 0x028
  | .ppCtrl => 0x02C
  | .ent w => 0x100 + 4 * w
  | .idx k => 0x140 + 4 * k
  | .seed w => 0x1C0 + 4 * w
  | .mn w => 0x400 + 4 * w
  | .pp w => 0x800 + 4 * w

/-- The word number is one its window has. -/
def Target.inRange : Target → Bool
  | .ent w => w < 8
  | .idx k => k < 24
  | .seed w => w < 16
  | .mn w => w < 256
  | .pp w => w < 256
  | _ => true

/-- All 4096 addresses, one by one. -/
theorem target_table : ∀ i < 64, ∀ j < 64,
    (target (BitVec.ofNat 12 (64 * i + j))).all (fun t => decide (64 * i + j = t.offset) && t.inRange) = true := by
  decide +kernel

/-- What an address selects stands at that address and exists. -/
theorem target_some (a : Addr) (t : Target) (h : target a = some t) : a.toNat = t.offset ∧ t.inRange = true := by
  have := target_table (a.toNat / 64) (by have := a.isLt; omega) (a.toNat % 64) (by omega)
  rw [Nat.div_add_mod, BitVec.ofNat_toNat, BitVec.setWidth_eq, h] at this
  simpa using this

/-- A register or an existing word of a window is selected by its address. -/
theorem target_ofNat (t : Target) (h : t.inRange = true) : target (BitVec.ofNat 12 t.offset) = some t := by
  have key : ∀ w < 256,
      (w < 8 → target (BitVec.ofNat 12 (0x100 + 4 * w)) = some (.ent w)) ∧
      (w < 24 → target (BitVec.ofNat 12 (0x140 + 4 * w)) = some (.idx w)) ∧
      (w < 16 → target (BitVec.ofNat 12 (0x1C0 + 4 * w)) = some (.seed w)) ∧
      target (BitVec.ofNat 12 (0x400 + 4 * w)) = some (.mn w) ∧
      target (BitVec.ofNat 12 (0x800 + 4 * w)) = some (.pp w) := by
    decide +kernel
  cases t with
  | ent w =>
    have hw : w < 8 := by simpa [Target.inRange] using h
    exact (key w (by omega)).1 hw
  | idx k =>
    have hk : k < 24 := by simpa [Target.inRange] using h
    exact (key k (by omega)).2.1 hk
  | seed w =>
    have hw : w < 16 := by simpa [Target.inRange] using h
    exact (key w (by omega)).2.2.1 hw
  | mn w =>
    have hw : w < 256 := by simpa [Target.inRange] using h
    exact (key w hw).2.2.2.1
  | pp w =>
    have hw : w < 256 := by simpa [Target.inRange] using h
    exact (key w hw).2.2.2.2
  | _ => decide

end Sys2Proof.Machine
end

