-- ==== Sys2Proof/Laws/Hash.lean ====
section
/-! SUPPORT. Lengths of the byte strings the hash functions make, and that a hash may start from the chaining value
after a whole first block. -/

namespace Sys2Proof.Machine

variable {w : Nat}

@[simp] theorem length_be (n v : Nat) : (be n v).length = n := by
  induction n generalizing v with
  | zero => rfl
  | succ n ih => simp [be, ih]

@[simp] theorem length_xorBytes (a b : List Byte) : (xorBytes a b).length = min a.length b.length := by
  simp [xorBytes]

/-- A digest is eight words long. -/
theorem length_digest (hv : Vars w) : (digest hv).length = 8 * (w / 8) := by
  simp only [digest, List.flatMap_cons, List.flatMap_nil, List.length_append, length_be, List.length_nil]
  omega

@[simp] theorem length_sha256 (m : List Byte) : (sha256 m).length = 32 := by
  unfold sha256 hash hashFrom
  rw [length_digest]

@[simp] theorem length_sha512 (m : List Byte) : (sha512 m).length = 64 := by
  unfold sha512 hash hashFrom
  rw [length_digest]

@[simp] theorem length_hmac512 (k m : List Byte) : (hmac512 k m).length = 64 := by
  unfold hmac512
  exact length_sha512 _

/-- The key block is one block of 128 bytes, whatever the key's length. -/
@[simp] theorem length_keyBlock (k : List Byte) : (keyBlock k).length = 128 := by
  simp only [keyBlock]
  split_ifs with h
  · simp
  · simp only [List.length_append, List.length_replicate]
    omega

@[simp] theorem length_ipad (k : List Byte) : (ipad k).length = k.length := by simp [ipad]

@[simp] theorem length_opad (k : List Byte) : (opad k).length = k.length := by simp [opad]

/-- Every pass of the loop keeps both strings 64 bytes long. -/
theorem length_kdfPass (p : List Byte) (ut : List Byte × List Byte) (h : ut.2.length = 64) :
    (kdfPass p ut).1.length = 64 ∧ (kdfPass p ut).2.length = 64 := by
  simp [kdfPass, h]

/-- Both strings of the loop are 64 bytes long after any number of iterations. -/
theorem length_kdfAfter (p salt : List Byte) (j : Nat) :
    (kdfAfter p salt j).1.length = 64 ∧ (kdfAfter p salt j).2.length = 64 := by
  unfold kdfAfter
  have h0 : (firstU p salt).length = 64 := length_hmac512 _ _
  generalize j - 1 = n
  induction n with
  | zero => exact ⟨h0, h0⟩
  | succ n ih =>
    rw [Function.iterate_succ_apply']
    exact length_kdfPass p _ ih.2

/-- The derived seed is 64 bytes long. -/
@[simp] theorem length_pbkdf2 (p salt : List Byte) : (pbkdf2 p salt).length = 64 := by
  unfold pbkdf2
  exact (length_kdfAfter p salt _).2

/-- One more iteration is one more pass. -/
theorem kdfAfter_succ (p salt : List Byte) (j : Nat) (h : 1 ≤ j) :
    kdfAfter p salt (j + 1) = kdfPass p (kdfAfter p salt j) := by
  unfold kdfAfter
  rw [show j + 1 - 1 = (j - 1) + 1 by omega, Function.iterate_succ_apply']

/-- The first block of a string that begins with one, and the rest. -/
theorem blocksOf_append (n : Nat) (hn : 0 < n) (x m : List Byte) (hx : x.length = n) :
    blocksOf n (x ++ m) = x :: blocksOf n m := by
  have hlen : (x ++ m).length / n = m.length / n + 1 := by
    rw [List.length_append, hx, Nat.add_comm, Nat.add_div_right _ hn]
  have ht : (x ++ m).take n = x := by rw [← hx, List.take_left]
  have hd : (x ++ m).drop n = m := by rw [← hx, List.drop_left]
  rw [blocksOf, hlen, takeBlocks, ht, hd, blocksOf]

/-- A hash may start from the chaining value after a whole first block. -/
theorem hashFrom_append (v : Sha2 w) (hw : 0 < w) (hv : Vars w) (done : Nat) (x m : List Byte)
    (hx : x.length = blockBytes w) :
    hashFrom v hv done (x ++ m) = hashFrom v (compress v hv x) (done + blockBytes w) m := by
  unfold hashFrom absorb
  rw [List.append_assoc, blocksOf_append _ (by unfold blockBytes; omega) _ _ hx, List.foldl_cons]
  rw [List.length_append, hx, ← Nat.add_assoc]

end Sys2Proof.Machine
end

