-- ==== Sys2Proof/Laws/Memory.lean ====
section
/-! SUPPORT. The laws of the byte register files: reading after writing, the canonical form, the number of registers,
and that equal files are equal data. -/

namespace Sys2Proof.Machine

@[simp] theorem Memory.get_nil (i : Nat) : Memory.get [] i = Memory.unlisted := rfl

theorem Memory.get_cons (k : Nat) (b : Byte) (m : Memory) (i : Nat) :
    Memory.get ((k, b) :: m) i = if k = i then b else Memory.get m i := rfl

/-- A byte below every cell's index has no cell. -/
theorem Memory.get_of_lt (m : Memory) (i : Nat) (h : ∀ c ∈ m, i < c.1) : m.get i = Memory.unlisted := by
  induction m with
  | nil => rfl
  | cons c rest ih =>
    obtain ⟨k, b⟩ := c
    have hk : i < k := h (k, b) (List.mem_cons_self ..)
    rw [Memory.get_cons, if_neg (by omega)]
    exact ih fun c hc => h c (List.mem_cons_of_mem _ hc)

/-- The cells of a written file are those of the file before and the one written. -/
theorem Memory.mem_set (m : Memory) (i : Nat) (v : Byte) (c : Host.Cell) (h : c ∈ m.set i v) :
    c ∈ m ∨ (c = (i, v) ∧ v ≠ Memory.unlisted) := by
  induction m with
  | nil =>
    by_cases hv : v = Memory.unlisted <;> simp_all [Memory.set]
  | cons d rest ih =>
    obtain ⟨k, b⟩ := d
    simp only [Memory.set] at h
    split_ifs at h with h1 h2 h3 h4
    · exact .inl h
    · rcases List.mem_cons.1 h with h | h
      · exact .inr ⟨h, h2⟩
      · exact .inl h
    · exact .inl (List.mem_cons_of_mem _ h)
    · rcases List.mem_cons.1 h with h | h
      · exact .inr ⟨h, h4⟩
      · exact .inl (List.mem_cons_of_mem _ h)
    · rcases List.mem_cons.1 h with h | h
      · exact .inl (h ▸ List.mem_cons_self ..)
      · rcases ih h with h | h
        · exact .inl (List.mem_cons_of_mem _ h)
        · exact .inr h

/-- Every write keeps the canonical form. -/
theorem Memory.wf_set (m : Memory) (i : Nat) (v : Byte) (h : m.wf) : (m.set i v).wf := by
  refine ⟨?_, fun c hc => ?_⟩
  · induction m with
    | nil => by_cases hv : v = Memory.unlisted <;> simp [Memory.set, hv]
    | cons d rest ih =>
      obtain ⟨k, b⟩ := d
      obtain ⟨hp, hz⟩ := h
      obtain ⟨hk, hr⟩ := List.pairwise_cons.1 hp
      have hrest : Memory.wf rest := ⟨hr, fun c hc => hz c (List.mem_cons_of_mem _ hc)⟩
      simp only [Memory.set]
      split_ifs with h1 h2 h3 h4
      · exact hp
      · refine List.pairwise_cons.2 ⟨fun c hc => ?_, hp⟩
        rcases List.mem_cons.1 hc with rfl | hc
        · exact h1
        · exact lt_trans h1 (hk c hc)
      · exact hr
      · exact List.pairwise_cons.2 ⟨fun c hc => h3 ▸ hk c hc, hr⟩
      · refine List.pairwise_cons.2 ⟨fun c hc => ?_, ih hrest⟩
        rcases Memory.mem_set rest i v c hc with hc | ⟨rfl, -⟩
        · exact hk c hc
        · show k < i
          omega
  · rcases Memory.mem_set m i v c hc with hc | ⟨rfl, hv⟩
    · exact h.2 c hc
    · exact hv

/-- A write at an index below `n` keeps a file within `n` registers. -/
theorem Memory.below_set (n : Nat) (m : Memory) (i : Nat) (v : Byte) (h : m.below n) (hi : i < n) :
    (m.set i v).below n := by
  intro c hc
  rcases Memory.mem_set m i v c hc with hc | ⟨rfl, -⟩
  · exact h c hc
  · exact hi

/-- Reading after writing: the byte written, and every other byte as before. -/
theorem Memory.get_set (m : Memory) (h : m.wf) (i : Nat) (v : Byte) (j : Nat) :
    (m.set i v).get j = if j = i then v else m.get j := by
  induction m with
  | nil =>
    by_cases hv : v = Memory.unlisted
    · simp [Memory.set, hv]
    · simp [Memory.set, hv, Memory.get_cons, eq_comm]
  | cons d rest ih =>
    obtain ⟨k, b⟩ := d
    obtain ⟨hp, hz⟩ := h
    obtain ⟨hk, hr⟩ := List.pairwise_cons.1 hp
    have hrest : Memory.wf rest := ⟨hr, fun c hc => hz c (List.mem_cons_of_mem _ hc)⟩
    have hbelow : ∀ x, x ≤ k → Memory.get rest x = Memory.unlisted := fun x hx =>
      Memory.get_of_lt rest x fun c hc => lt_of_le_of_lt hx (hk c hc)
    simp only [Memory.set]
    rcases lt_trichotomy i k with hik | hik | hik
    · rw [if_pos hik]
      by_cases hv : v = Memory.unlisted
      · rw [if_pos hv, Memory.get_cons]
        by_cases hj : j = i
        · rw [if_pos hj, if_neg (by omega), hbelow j (by omega), hv]
        · rw [if_neg hj]
      · rw [if_neg hv, Memory.get_cons]
        by_cases hj : j = i
        · rw [if_pos hj, if_pos hj.symm]
        · rw [if_neg hj, if_neg (Ne.symm hj)]
    · subst hik
      rw [if_neg (lt_irrefl i), if_pos rfl, Memory.get_cons]
      by_cases hj : j = i
      · subst hj
        rw [if_pos rfl]
        by_cases hv : v = Memory.unlisted
        · rw [if_pos hv, hbelow j le_rfl, hv]
        · rw [if_neg hv, Memory.get_cons, if_pos rfl]
      · rw [if_neg hj, if_neg (Ne.symm hj)]
        by_cases hv : v = Memory.unlisted
        · rw [if_pos hv]
        · rw [if_neg hv, Memory.get_cons, if_neg (Ne.symm hj)]
    · rw [if_neg (by omega), if_neg (by omega), Memory.get_cons, Memory.get_cons, ih hrest]
      by_cases hj : j = i
      · rw [if_pos hj, if_neg (by omega), if_pos hj]
      · rw [if_neg hj, if_neg hj]

@[simp] theorem Memory.get_set_same (m : Memory) (h : m.wf) (i : Nat) (v : Byte) : (m.set i v).get i = v := by
  rw [Memory.get_set m h, if_pos rfl]

theorem Memory.get_set_other (m : Memory) (h : m.wf) (i : Nat) (v : Byte) (j : Nat) (hj : j ≠ i) :
    (m.set i v).get j = m.get j := by
  rw [Memory.get_set m h, if_neg hj]

/-- In a canonical file a cell's byte is what its index reads. -/
theorem Memory.get_of_mem (m : Memory) (h : m.wf) (c : Host.Cell) (hc : c ∈ m) : m.get c.1 = c.2 := by
  induction m with
  | nil => cases hc
  | cons d rest ih =>
    obtain ⟨hp, hz⟩ := h
    obtain ⟨hk, hr⟩ := List.pairwise_cons.1 hp
    have hrest : Memory.wf rest := ⟨hr, fun c hc => hz c (List.mem_cons_of_mem _ hc)⟩
    rcases List.mem_cons.1 hc with rfl | hc
    · exact if_pos rfl
    · have := hk c hc
      exact (if_neg (by omega)).trans (ih hrest hc)

/-- Equal files are equal data: two canonical files that read the same everywhere are the same list. -/
theorem Memory.ext_of_get (m n : Memory) (hm : m.wf) (hn : n.wf) (h : ∀ i, m.get i = n.get i) : m = n := by
  induction m generalizing n with
  | nil =>
    cases n with
    | nil => rfl
    | cons c rest =>
      have := Memory.get_of_mem _ hn c (List.mem_cons_self ..)
      exact absurd (this.symm.trans (h c.1).symm) (hn.2 c (List.mem_cons_self ..))
  | cons c rest ih =>
    cases n with
    | nil =>
      have := Memory.get_of_mem _ hm c (List.mem_cons_self ..)
      exact absurd (this.symm.trans (h c.1)) (hm.2 c (List.mem_cons_self ..))
    | cons d rest' =>
      obtain ⟨hmk, hmr⟩ := List.pairwise_cons.1 hm.1
      obtain ⟨hnk, hnr⟩ := List.pairwise_cons.1 hn.1
      have wm : Memory.wf rest := ⟨hmr, fun c hc => hm.2 c (List.mem_cons_of_mem _ hc)⟩
      have wn : Memory.wf rest' := ⟨hnr, fun c hc => hn.2 c (List.mem_cons_of_mem _ hc)⟩
      have gm := Memory.get_of_mem _ hm c (List.mem_cons_self ..)
      have gn := Memory.get_of_mem _ hn d (List.mem_cons_self ..)
      have key : c.1 = d.1 := by
        rcases lt_trichotomy c.1 d.1 with hlt | heq | hgt
        · have : Memory.get (d :: rest') c.1 = Memory.unlisted := Memory.get_of_lt _ _ fun e he => by
            rcases List.mem_cons.1 he with rfl | he
            · exact hlt
            · exact lt_trans hlt (hnk e he)
          exact absurd (gm.symm.trans ((h c.1).trans this)) (hm.2 c (List.mem_cons_self ..))
        · exact heq
        · have : Memory.get (c :: rest) d.1 = Memory.unlisted := Memory.get_of_lt _ _ fun e he => by
            rcases List.mem_cons.1 he with rfl | he
            · exact hgt
            · exact lt_trans hgt (hmk e he)
          exact absurd (gn.symm.trans ((h d.1).symm.trans this)) (hn.2 d (List.mem_cons_self ..))
      have hcd : c = d := Prod.ext key (gm.symm.trans ((h c.1).trans (key ▸ gn)))
      subst hcd
      refine congrArg _ (ih rest' wm wn fun i => ?_)
      by_cases hi : c.1 = i
      · subst hi
        rw [Memory.get_of_lt rest c.1 hmk, Memory.get_of_lt rest' c.1 hnk]
      · have := h i
        obtain ⟨k, b⟩ := c
        rwa [Memory.get_cons, Memory.get_cons, if_neg hi, if_neg hi] at this

/-- Writing a byte string keeps the canonical form. -/
theorem Memory.wf_setBytes (m : Memory) (n : Nat) (s : List Byte) (h : m.wf) : (m.setBytes n s).wf := by
  unfold Memory.setBytes
  induction n with
  | zero => exact h
  | succ n ih =>
    rw [List.range_succ, List.foldl_append]
    exact Memory.wf_set _ _ _ ih

/-- Writing `n` bytes into a file of `k` registers keeps it within them when `n` does not exceed `k`. -/
theorem Memory.below_setBytes (k : Nat) (m : Memory) (n : Nat) (s : List Byte) (h : m.below k) (hn : n ≤ k) :
    (m.setBytes n s).below k := by
  unfold Memory.setBytes
  induction n with
  | zero => exact h
  | succ n ih =>
    rw [List.range_succ, List.foldl_append]
    exact Memory.below_set _ _ _ _ (ih (by omega)) (by omega)

/-- What reads after a byte string is written: its bytes below `n`, the old bytes from there on. -/
theorem Memory.get_setBytes (m : Memory) (n : Nat) (s : List Byte) (h : m.wf) (i : Nat) :
    (m.setBytes n s).get i = if i < n then s.getD i 0 else m.get i := by
  unfold Memory.setBytes
  induction n with
  | zero => rfl
  | succ n ih =>
    have hw : Memory.wf ((List.range n).foldl (fun acc i => acc.set i (s.getD i 0)) m) := by
      have := Memory.wf_setBytes m n s h
      unfold Memory.setBytes at this
      exact this
    rw [List.range_succ, List.foldl_append]
    simp only [List.foldl_cons, List.foldl_nil]
    rw [Memory.get_set _ hw, ih]
    split_ifs with h1 h2 h3 <;> first | omega | rfl | skip
    rw [h1]

/-- A word written keeps the canonical form. -/
theorem Memory.wf_setWord (m : Memory) (w : Nat) (v : Word) (h : m.wf) : (m.setWord w v).wf :=
  Memory.wf_set _ _ _ (Memory.wf_set _ _ _ (Memory.wf_set _ _ _ (Memory.wf_set _ _ _ h)))

/-- A word written below `n` keeps a file within `n` registers. -/
theorem Memory.below_setWord (n : Nat) (m : Memory) (w : Nat) (v : Word) (h : m.below n) (hw : 4 * w + 3 < n) :
    (m.setWord w v).below n :=
  Memory.below_set _ _ _ _ (Memory.below_set _ _ _ _ (Memory.below_set _ _ _ _ (Memory.below_set _ _ _ _ h
    (by omega)) (by omega)) (by omega)) (by omega)

/-- What reads after a word is written: its four lanes, and every other byte as before. -/
theorem Memory.get_setWord (m : Memory) (w : Nat) (v : Word) (h : m.wf) (i : Nat) :
    (m.setWord w v).get i = if i / 4 = w then v.extractLsb' (8 * (i % 4)) 8 else m.get i := by
  have h0 := Memory.wf_set m (4 * w) (v.extractLsb' 0 8) h
  have h1 := Memory.wf_set _ (4 * w + 1) (v.extractLsb' 8 8) h0
  have h2 := Memory.wf_set _ (4 * w + 2) (v.extractLsb' 16 8) h1
  unfold Memory.setWord
  rw [Memory.get_set _ h2, Memory.get_set _ h1, Memory.get_set _ h0, Memory.get_set _ h]
  by_cases hi : i / 4 = w
  · rw [if_pos hi]
    have : i % 4 = 0 ∨ i % 4 = 1 ∨ i % 4 = 2 ∨ i % 4 = 3 := by omega
    rcases this with hm | hm | hm | hm
    · rw [if_neg (by omega), if_neg (by omega), if_neg (by omega), if_pos (by omega), hm]
    · rw [if_neg (by omega), if_neg (by omega), if_pos (by omega), hm]
    · rw [if_neg (by omega), if_pos (by omega), hm]
    · rw [if_pos (by omega), hm]
  · rw [if_neg hi, if_neg (by omega), if_neg (by omega), if_neg (by omega), if_neg (by omega)]

/-- A byte string read from a file has the length asked for. -/
@[simp] theorem Memory.length_bytes (m : Memory) (n : Nat) : (m.bytes n).length = n := by
  simp [Memory.bytes]

/-- The byte string depends on the bytes below its length alone. -/
theorem Memory.bytes_congr (m k : Memory) (n : Nat) (h : ∀ i < n, m.get i = k.get i) : m.bytes n = k.bytes n :=
  List.map_congr_left fun i hi => h i (List.mem_range.1 hi)

end Sys2Proof.Machine
end

