-- ==== Sys2Proof/Laws/State.lean ====
section
/-! SUPPORT. What each update of the state leaves in each field: one lemma per field per update, true by rfl, so that
no later proof unfolds a record update. -/

namespace Sys2Proof.Machine

/-! ### `raise` -/

@[simp] theorem raise_ent (e : Event) (s : State) : (raise e s).ent = s.ent := rfl
@[simp] theorem raise_entN (e : Event) (s : State) : (raise e s).entN = s.entN := rfl
@[simp] theorem raise_cs (e : Event) (s : State) : (raise e s).cs = s.cs := rfl
@[simp] theorem raise_csw (e : Event) (s : State) : (raise e s).csw = s.csw := rfl
@[simp] theorem raise_csValid (e : Event) (s : State) : (raise e s).csValid = s.csValid := rfl
@[simp] theorem raise_idx (e : Event) (s : State) : (raise e s).idx = s.idx := rfl
@[simp] theorem raise_idxCnt (e : Event) (s : State) : (raise e s).idxCnt = s.idxCnt := rfl
@[simp] theorem raise_idxValid (e : Event) (s : State) : (raise e s).idxValid = s.idxValid := rfl
@[simp] theorem raise_mn (e : Event) (s : State) : (raise e s).mn = s.mn := rfl
@[simp] theorem raise_mnLen (e : Event) (s : State) : (raise e s).mnLen = s.mnLen := rfl
@[simp] theorem raise_pp (e : Event) (s : State) : (raise e s).pp = s.pp := rfl
@[simp] theorem raise_ppLen (e : Event) (s : State) : (raise e s).ppLen = s.ppLen := rfl
@[simp] theorem raise_ppPresent (e : Event) (s : State) : (raise e s).ppPresent = s.ppPresent := rfl
@[simp] theorem raise_seed (e : Event) (s : State) : (raise e s).seed = s.seed := rfl
@[simp] theorem raise_seedValid (e : Event) (s : State) : (raise e s).seedValid = s.seedValid := rfl
@[simp] theorem raise_lastop (e : Event) (s : State) : (raise e s).lastop = s.lastop := rfl
@[simp] theorem raise_event (e : Event) (s : State) : (raise e s).event = withEvent e s.event := rfl
@[simp] theorem raise_ie (e : Event) (s : State) : (raise e s).ie = s.ie := rfl
@[simp] theorem raise_phase (e : Event) (s : State) : (raise e s).phase = s.phase := rfl
@[simp] theorem raise_cmd (e : Event) (s : State) : (raise e s).cmd = s.cmd := rfl
@[simp] theorem raise_wrk (e : Event) (s : State) : (raise e s).wrk = s.wrk := rfl
@[simp] theorem raise_agenda (e : Event) (s : State) : (raise e s).agenda = s.agenda := rfl
@[simp] theorem raise_reply (e : Event) (s : State) : (raise e s).reply = s.reply := rfl

/-! ### `invalidateIndices` -/

@[simp] theorem invalidateIndices_ent (s : State) : (invalidateIndices s).ent = s.ent := rfl
@[simp] theorem invalidateIndices_entN (s : State) : (invalidateIndices s).entN = s.entN := rfl
@[simp] theorem invalidateIndices_cs (s : State) : (invalidateIndices s).cs = s.cs := rfl
@[simp] theorem invalidateIndices_csw (s : State) : (invalidateIndices s).csw = s.csw := rfl
@[simp] theorem invalidateIndices_csValid (s : State) : (invalidateIndices s).csValid = s.csValid := rfl
@[simp] theorem invalidateIndices_idx (s : State) : (invalidateIndices s).idx = zeroIdx := rfl
@[simp] theorem invalidateIndices_idxCnt (s : State) : (invalidateIndices s).idxCnt = 0 := rfl
@[simp] theorem invalidateIndices_idxValid (s : State) : (invalidateIndices s).idxValid = false := rfl
@[simp] theorem invalidateIndices_mn (s : State) : (invalidateIndices s).mn = s.mn := rfl
@[simp] theorem invalidateIndices_mnLen (s : State) : (invalidateIndices s).mnLen = s.mnLen := rfl
@[simp] theorem invalidateIndices_pp (s : State) : (invalidateIndices s).pp = s.pp := rfl
@[simp] theorem invalidateIndices_ppLen (s : State) : (invalidateIndices s).ppLen = s.ppLen := rfl
@[simp] theorem invalidateIndices_ppPresent (s : State) : (invalidateIndices s).ppPresent = s.ppPresent := rfl
@[simp] theorem invalidateIndices_seed (s : State) : (invalidateIndices s).seed = s.seed := rfl
@[simp] theorem invalidateIndices_seedValid (s : State) : (invalidateIndices s).seedValid = s.seedValid := rfl
@[simp] theorem invalidateIndices_lastop (s : State) : (invalidateIndices s).lastop = s.lastop := rfl
@[simp] theorem invalidateIndices_event (s : State) : (invalidateIndices s).event = s.event := rfl
@[simp] theorem invalidateIndices_ie (s : State) : (invalidateIndices s).ie = s.ie := rfl
@[simp] theorem invalidateIndices_phase (s : State) : (invalidateIndices s).phase = s.phase := rfl
@[simp] theorem invalidateIndices_cmd (s : State) : (invalidateIndices s).cmd = s.cmd := rfl
@[simp] theorem invalidateIndices_wrk (s : State) : (invalidateIndices s).wrk = s.wrk := rfl
@[simp] theorem invalidateIndices_agenda (s : State) : (invalidateIndices s).agenda = s.agenda := rfl
@[simp] theorem invalidateIndices_reply (s : State) : (invalidateIndices s).reply = s.reply := rfl

/-! ### `invalidateEntropySide` -/

@[simp] theorem invalidateEntropySide_ent (s : State) : (invalidateEntropySide s).ent = s.ent := rfl
@[simp] theorem invalidateEntropySide_entN (s : State) : (invalidateEntropySide s).entN = s.entN := rfl
@[simp] theorem invalidateEntropySide_cs (s : State) : (invalidateEntropySide s).cs = 0 := rfl
@[simp] theorem invalidateEntropySide_csw (s : State) : (invalidateEntropySide s).csw = 0 := rfl
@[simp] theorem invalidateEntropySide_csValid (s : State) : (invalidateEntropySide s).csValid = false := rfl
@[simp] theorem invalidateEntropySide_idx (s : State) : (invalidateEntropySide s).idx = zeroIdx := rfl
@[simp] theorem invalidateEntropySide_idxCnt (s : State) : (invalidateEntropySide s).idxCnt = 0 := rfl
@[simp] theorem invalidateEntropySide_idxValid (s : State) : (invalidateEntropySide s).idxValid = false := rfl
@[simp] theorem invalidateEntropySide_mn (s : State) : (invalidateEntropySide s).mn = s.mn := rfl
@[simp] theorem invalidateEntropySide_mnLen (s : State) : (invalidateEntropySide s).mnLen = s.mnLen := rfl
@[simp] theorem invalidateEntropySide_pp (s : State) : (invalidateEntropySide s).pp = s.pp := rfl
@[simp] theorem invalidateEntropySide_ppLen (s : State) : (invalidateEntropySide s).ppLen = s.ppLen := rfl
@[simp] theorem invalidateEntropySide_ppPresent (s : State) : (invalidateEntropySide s).ppPresent = s.ppPresent := rfl
@[simp] theorem invalidateEntropySide_seed (s : State) : (invalidateEntropySide s).seed = s.seed := rfl
@[simp] theorem invalidateEntropySide_seedValid (s : State) : (invalidateEntropySide s).seedValid = s.seedValid := rfl
@[simp] theorem invalidateEntropySide_lastop (s : State) : (invalidateEntropySide s).lastop = s.lastop := rfl
@[simp] theorem invalidateEntropySide_event (s : State) : (invalidateEntropySide s).event = s.event := rfl
@[simp] theorem invalidateEntropySide_ie (s : State) : (invalidateEntropySide s).ie = s.ie := rfl
@[simp] theorem invalidateEntropySide_phase (s : State) : (invalidateEntropySide s).phase = s.phase := rfl
@[simp] theorem invalidateEntropySide_cmd (s : State) : (invalidateEntropySide s).cmd = s.cmd := rfl
@[simp] theorem invalidateEntropySide_wrk (s : State) : (invalidateEntropySide s).wrk = s.wrk := rfl
@[simp] theorem invalidateEntropySide_agenda (s : State) : (invalidateEntropySide s).agenda = s.agenda := rfl
@[simp] theorem invalidateEntropySide_reply (s : State) : (invalidateEntropySide s).reply = s.reply := rfl

/-! ### `invalidateSeed` -/

@[simp] theorem invalidateSeed_ent (s : State) : (invalidateSeed s).ent = s.ent := rfl
@[simp] theorem invalidateSeed_entN (s : State) : (invalidateSeed s).entN = s.entN := rfl
@[simp] theorem invalidateSeed_cs (s : State) : (invalidateSeed s).cs = s.cs := rfl
@[simp] theorem invalidateSeed_csw (s : State) : (invalidateSeed s).csw = s.csw := rfl
@[simp] theorem invalidateSeed_csValid (s : State) : (invalidateSeed s).csValid = s.csValid := rfl
@[simp] theorem invalidateSeed_idx (s : State) : (invalidateSeed s).idx = s.idx := rfl
@[simp] theorem invalidateSeed_idxCnt (s : State) : (invalidateSeed s).idxCnt = s.idxCnt := rfl
@[simp] theorem invalidateSeed_idxValid (s : State) : (invalidateSeed s).idxValid = s.idxValid := rfl
@[simp] theorem invalidateSeed_mn (s : State) : (invalidateSeed s).mn = s.mn := rfl
@[simp] theorem invalidateSeed_mnLen (s : State) : (invalidateSeed s).mnLen = s.mnLen := rfl
@[simp] theorem invalidateSeed_pp (s : State) : (invalidateSeed s).pp = s.pp := rfl
@[simp] theorem invalidateSeed_ppLen (s : State) : (invalidateSeed s).ppLen = s.ppLen := rfl
@[simp] theorem invalidateSeed_ppPresent (s : State) : (invalidateSeed s).ppPresent = s.ppPresent := rfl
@[simp] theorem invalidateSeed_seed (s : State) : (invalidateSeed s).seed = [] := rfl
@[simp] theorem invalidateSeed_seedValid (s : State) : (invalidateSeed s).seedValid = false := rfl
@[simp] theorem invalidateSeed_lastop (s : State) : (invalidateSeed s).lastop = s.lastop := rfl
@[simp] theorem invalidateSeed_event (s : State) : (invalidateSeed s).event = s.event := rfl
@[simp] theorem invalidateSeed_ie (s : State) : (invalidateSeed s).ie = s.ie := rfl
@[simp] theorem invalidateSeed_phase (s : State) : (invalidateSeed s).phase = s.phase := rfl
@[simp] theorem invalidateSeed_cmd (s : State) : (invalidateSeed s).cmd = s.cmd := rfl
@[simp] theorem invalidateSeed_wrk (s : State) : (invalidateSeed s).wrk = s.wrk := rfl
@[simp] theorem invalidateSeed_agenda (s : State) : (invalidateSeed s).agenda = s.agenda := rfl
@[simp] theorem invalidateSeed_reply (s : State) : (invalidateSeed s).reply = s.reply := rfl

/-! ### `zeroiseEntropy` -/

@[simp] theorem zeroiseEntropy_ent (s : State) : (zeroiseEntropy s).ent = [] := rfl
@[simp] theorem zeroiseEntropy_entN (s : State) : (zeroiseEntropy s).entN = 0 := rfl
@[simp] theorem zeroiseEntropy_cs (s : State) : (zeroiseEntropy s).cs = 0 := rfl
@[simp] theorem zeroiseEntropy_csw (s : State) : (zeroiseEntropy s).csw = 0 := rfl
@[simp] theorem zeroiseEntropy_csValid (s : State) : (zeroiseEntropy s).csValid = false := rfl
@[simp] theorem zeroiseEntropy_idx (s : State) : (zeroiseEntropy s).idx = zeroIdx := rfl
@[simp] theorem zeroiseEntropy_idxCnt (s : State) : (zeroiseEntropy s).idxCnt = 0 := rfl
@[simp] theorem zeroiseEntropy_idxValid (s : State) : (zeroiseEntropy s).idxValid = false := rfl
@[simp] theorem zeroiseEntropy_mn (s : State) : (zeroiseEntropy s).mn = s.mn := rfl
@[simp] theorem zeroiseEntropy_mnLen (s : State) : (zeroiseEntropy s).mnLen = s.mnLen := rfl
@[simp] theorem zeroiseEntropy_pp (s : State) : (zeroiseEntropy s).pp = s.pp := rfl
@[simp] theorem zeroiseEntropy_ppLen (s : State) : (zeroiseEntropy s).ppLen = s.ppLen := rfl
@[simp] theorem zeroiseEntropy_ppPresent (s : State) : (zeroiseEntropy s).ppPresent = s.ppPresent := rfl
@[simp] theorem zeroiseEntropy_seed (s : State) : (zeroiseEntropy s).seed = s.seed := rfl
@[simp] theorem zeroiseEntropy_seedValid (s : State) : (zeroiseEntropy s).seedValid = s.seedValid := rfl
@[simp] theorem zeroiseEntropy_lastop (s : State) : (zeroiseEntropy s).lastop = s.lastop := rfl
@[simp] theorem zeroiseEntropy_event (s : State) : (zeroiseEntropy s).event = s.event := rfl
@[simp] theorem zeroiseEntropy_ie (s : State) : (zeroiseEntropy s).ie = s.ie := rfl
@[simp] theorem zeroiseEntropy_phase (s : State) : (zeroiseEntropy s).phase = s.phase := rfl
@[simp] theorem zeroiseEntropy_cmd (s : State) : (zeroiseEntropy s).cmd = s.cmd := rfl
@[simp] theorem zeroiseEntropy_wrk (s : State) : (zeroiseEntropy s).wrk = s.wrk := rfl
@[simp] theorem zeroiseEntropy_agenda (s : State) : (zeroiseEntropy s).agenda = s.agenda := rfl
@[simp] theorem zeroiseEntropy_reply (s : State) : (zeroiseEntropy s).reply = s.reply := rfl

/-! ### `zeroiseKdfin` -/

@[simp] theorem zeroiseKdfin_ent (s : State) : (zeroiseKdfin s).ent = s.ent := rfl
@[simp] theorem zeroiseKdfin_entN (s : State) : (zeroiseKdfin s).entN = s.entN := rfl
@[simp] theorem zeroiseKdfin_cs (s : State) : (zeroiseKdfin s).cs = s.cs := rfl
@[simp] theorem zeroiseKdfin_csw (s : State) : (zeroiseKdfin s).csw = s.csw := rfl
@[simp] theorem zeroiseKdfin_csValid (s : State) : (zeroiseKdfin s).csValid = s.csValid := rfl
@[simp] theorem zeroiseKdfin_idx (s : State) : (zeroiseKdfin s).idx = s.idx := rfl
@[simp] theorem zeroiseKdfin_idxCnt (s : State) : (zeroiseKdfin s).idxCnt = s.idxCnt := rfl
@[simp] theorem zeroiseKdfin_idxValid (s : State) : (zeroiseKdfin s).idxValid = s.idxValid := rfl
@[simp] theorem zeroiseKdfin_mn (s : State) : (zeroiseKdfin s).mn = [] := rfl
@[simp] theorem zeroiseKdfin_mnLen (s : State) : (zeroiseKdfin s).mnLen = 0 := rfl
@[simp] theorem zeroiseKdfin_pp (s : State) : (zeroiseKdfin s).pp = [] := rfl
@[simp] theorem zeroiseKdfin_ppLen (s : State) : (zeroiseKdfin s).ppLen = 0 := rfl
@[simp] theorem zeroiseKdfin_ppPresent (s : State) : (zeroiseKdfin s).ppPresent = false := rfl
@[simp] theorem zeroiseKdfin_seed (s : State) : (zeroiseKdfin s).seed = s.seed := rfl
@[simp] theorem zeroiseKdfin_seedValid (s : State) : (zeroiseKdfin s).seedValid = s.seedValid := rfl
@[simp] theorem zeroiseKdfin_lastop (s : State) : (zeroiseKdfin s).lastop = s.lastop := rfl
@[simp] theorem zeroiseKdfin_event (s : State) : (zeroiseKdfin s).event = s.event := rfl
@[simp] theorem zeroiseKdfin_ie (s : State) : (zeroiseKdfin s).ie = s.ie := rfl
@[simp] theorem zeroiseKdfin_phase (s : State) : (zeroiseKdfin s).phase = s.phase := rfl
@[simp] theorem zeroiseKdfin_cmd (s : State) : (zeroiseKdfin s).cmd = s.cmd := rfl
@[simp] theorem zeroiseKdfin_wrk (s : State) : (zeroiseKdfin s).wrk = s.wrk := rfl
@[simp] theorem zeroiseKdfin_agenda (s : State) : (zeroiseKdfin s).agenda = s.agenda := rfl
@[simp] theorem zeroiseKdfin_reply (s : State) : (zeroiseKdfin s).reply = s.reply := rfl

/-! ### `finish` -/

@[simp] theorem finish_ent (s : State) : (finish s).ent = s.ent := rfl
@[simp] theorem finish_entN (s : State) : (finish s).entN = s.entN := rfl
@[simp] theorem finish_cs (s : State) : (finish s).cs = s.cs := rfl
@[simp] theorem finish_csw (s : State) : (finish s).csw = s.csw := rfl
@[simp] theorem finish_csValid (s : State) : (finish s).csValid = s.csValid := rfl
@[simp] theorem finish_idx (s : State) : (finish s).idx = s.idx := rfl
@[simp] theorem finish_idxCnt (s : State) : (finish s).idxCnt = s.idxCnt := rfl
@[simp] theorem finish_idxValid (s : State) : (finish s).idxValid = s.idxValid := rfl
@[simp] theorem finish_mn (s : State) : (finish s).mn = s.mn := rfl
@[simp] theorem finish_mnLen (s : State) : (finish s).mnLen = s.mnLen := rfl
@[simp] theorem finish_pp (s : State) : (finish s).pp = s.pp := rfl
@[simp] theorem finish_ppLen (s : State) : (finish s).ppLen = s.ppLen := rfl
@[simp] theorem finish_ppPresent (s : State) : (finish s).ppPresent = s.ppPresent := rfl
@[simp] theorem finish_seed (s : State) : (finish s).seed = s.seed := rfl
@[simp] theorem finish_seedValid (s : State) : (finish s).seedValid = s.seedValid := rfl
@[simp] theorem finish_lastop (s : State) : (finish s).lastop = s.lastop := rfl
@[simp] theorem finish_event (s : State) : (finish s).event = withEvent .done s.event := rfl
@[simp] theorem finish_ie (s : State) : (finish s).ie = s.ie := rfl
@[simp] theorem finish_phase (s : State) : (finish s).phase = .idle := rfl
@[simp] theorem finish_cmd (s : State) : (finish s).cmd = 0 := rfl
@[simp] theorem finish_wrk (s : State) : (finish s).wrk = Working.zero := rfl
@[simp] theorem finish_agenda (s : State) : (finish s).agenda = s.agenda := rfl
@[simp] theorem finish_reply (s : State) : (finish s).reply = s.reply := rfl

/-! ### `faultEntry` -/

@[simp] theorem faultEntry_ent (s : State) : (faultEntry s).ent = [] := rfl
@[simp] theorem faultEntry_entN (s : State) : (faultEntry s).entN = 0 := rfl
@[simp] theorem faultEntry_cs (s : State) : (faultEntry s).cs = 0 := rfl
@[simp] theorem faultEntry_csw (s : State) : (faultEntry s).csw = 0 := rfl
@[simp] theorem faultEntry_csValid (s : State) : (faultEntry s).csValid = false := rfl
@[simp] theorem faultEntry_idx (s : State) : (faultEntry s).idx = zeroIdx := rfl
@[simp] theorem faultEntry_idxCnt (s : State) : (faultEntry s).idxCnt = 0 := rfl
@[simp] theorem faultEntry_idxValid (s : State) : (faultEntry s).idxValid = false := rfl
@[simp] theorem faultEntry_mn (s : State) : (faultEntry s).mn = [] := rfl
@[simp] theorem faultEntry_mnLen (s : State) : (faultEntry s).mnLen = 0 := rfl
@[simp] theorem faultEntry_pp (s : State) : (faultEntry s).pp = [] := rfl
@[simp] theorem faultEntry_ppLen (s : State) : (faultEntry s).ppLen = 0 := rfl
@[simp] theorem faultEntry_ppPresent (s : State) : (faultEntry s).ppPresent = false := rfl
@[simp] theorem faultEntry_seed (s : State) : (faultEntry s).seed = [] := rfl
@[simp] theorem faultEntry_seedValid (s : State) : (faultEntry s).seedValid = false := rfl
@[simp] theorem faultEntry_lastop (s : State) : (faultEntry s).lastop = s.lastop := rfl
@[simp] theorem faultEntry_event (s : State) : (faultEntry s).event = withEvent .fInv s.event := rfl
@[simp] theorem faultEntry_ie (s : State) : (faultEntry s).ie = s.ie := rfl
@[simp] theorem faultEntry_phase (s : State) : (faultEntry s).phase = .fault := rfl
@[simp] theorem faultEntry_cmd (s : State) : (faultEntry s).cmd = 0 := rfl
@[simp] theorem faultEntry_wrk (s : State) : (faultEntry s).wrk = Working.zero := rfl
@[simp] theorem faultEntry_agenda (s : State) : (faultEntry s).agenda = s.agenda := rfl
@[simp] theorem faultEntry_reply (s : State) : (faultEntry s).reply = s.reply := rfl

/-! ### `accept` -/

@[simp] theorem accept_ent (i : Instr) (f : State → State) (s : State) : (accept i f s).ent = (f s).ent := rfl
@[simp] theorem accept_entN (i : Instr) (f : State → State) (s : State) : (accept i f s).entN = (f s).entN := rfl
@[simp] theorem accept_cs (i : Instr) (f : State → State) (s : State) : (accept i f s).cs = (f s).cs := rfl
@[simp] theorem accept_csw (i : Instr) (f : State → State) (s : State) : (accept i f s).csw = (f s).csw := rfl
@[simp] theorem accept_csValid (i : Instr) (f : State → State) (s : State) : (accept i f s).csValid = (f s).csValid := rfl
@[simp] theorem accept_idx (i : Instr) (f : State → State) (s : State) : (accept i f s).idx = (f s).idx := rfl
@[simp] theorem accept_idxCnt (i : Instr) (f : State → State) (s : State) : (accept i f s).idxCnt = (f s).idxCnt := rfl
@[simp] theorem accept_idxValid (i : Instr) (f : State → State) (s : State) : (accept i f s).idxValid = (f s).idxValid := rfl
@[simp] theorem accept_mn (i : Instr) (f : State → State) (s : State) : (accept i f s).mn = (f s).mn := rfl
@[simp] theorem accept_mnLen (i : Instr) (f : State → State) (s : State) : (accept i f s).mnLen = (f s).mnLen := rfl
@[simp] theorem accept_pp (i : Instr) (f : State → State) (s : State) : (accept i f s).pp = (f s).pp := rfl
@[simp] theorem accept_ppLen (i : Instr) (f : State → State) (s : State) : (accept i f s).ppLen = (f s).ppLen := rfl
@[simp] theorem accept_ppPresent (i : Instr) (f : State → State) (s : State) : (accept i f s).ppPresent = (f s).ppPresent := rfl
@[simp] theorem accept_seed (i : Instr) (f : State → State) (s : State) : (accept i f s).seed = (f s).seed := rfl
@[simp] theorem accept_seedValid (i : Instr) (f : State → State) (s : State) : (accept i f s).seedValid = (f s).seedValid := rfl
@[simp] theorem accept_lastop (i : Instr) (f : State → State) (s : State) : (accept i f s).lastop = (encode i).extractLsb' 0 8 := rfl
@[simp] theorem accept_event (i : Instr) (f : State → State) (s : State) : (accept i f s).event = (f s).event := rfl
@[simp] theorem accept_ie (i : Instr) (f : State → State) (s : State) : (accept i f s).ie = (f s).ie := rfl
@[simp] theorem accept_phase (i : Instr) (f : State → State) (s : State) : (accept i f s).phase = .run := rfl
@[simp] theorem accept_cmd (i : Instr) (f : State → State) (s : State) : (accept i f s).cmd = encode i := rfl
@[simp] theorem accept_wrk (i : Instr) (f : State → State) (s : State) : (accept i f s).wrk = (f s).wrk := rfl
@[simp] theorem accept_agenda (i : Instr) (f : State → State) (s : State) : (accept i f s).agenda = (f s).agenda := rfl
@[simp] theorem accept_reply (i : Instr) (f : State → State) (s : State) : (accept i f s).reply = (f s).reply := rfl

/-! ### `checksumResults` -/

@[simp] theorem checksumResults_ent (s : State) : (checksumResults s).ent = s.ent := rfl
@[simp] theorem checksumResults_entN (s : State) : (checksumResults s).entN = s.entN := rfl
@[simp] theorem checksumResults_cs (s : State) : (checksumResults s).cs = csx (sha256 (entropy s)) (checksumBits s) := rfl
@[simp] theorem checksumResults_csw (s : State) : (checksumResults s).csw = BitVec.ofNat 4 (checksumBits s) := rfl
@[simp] theorem checksumResults_csValid (s : State) : (checksumResults s).csValid = true := rfl
@[simp] theorem checksumResults_idx (s : State) : (checksumResults s).idx = s.idx := rfl
@[simp] theorem checksumResults_idxCnt (s : State) : (checksumResults s).idxCnt = s.idxCnt := rfl
@[simp] theorem checksumResults_idxValid (s : State) : (checksumResults s).idxValid = s.idxValid := rfl
@[simp] theorem checksumResults_mn (s : State) : (checksumResults s).mn = s.mn := rfl
@[simp] theorem checksumResults_mnLen (s : State) : (checksumResults s).mnLen = s.mnLen := rfl
@[simp] theorem checksumResults_pp (s : State) : (checksumResults s).pp = s.pp := rfl
@[simp] theorem checksumResults_ppLen (s : State) : (checksumResults s).ppLen = s.ppLen := rfl
@[simp] theorem checksumResults_ppPresent (s : State) : (checksumResults s).ppPresent = s.ppPresent := rfl
@[simp] theorem checksumResults_seed (s : State) : (checksumResults s).seed = s.seed := rfl
@[simp] theorem checksumResults_seedValid (s : State) : (checksumResults s).seedValid = s.seedValid := rfl
@[simp] theorem checksumResults_lastop (s : State) : (checksumResults s).lastop = s.lastop := rfl
@[simp] theorem checksumResults_event (s : State) : (checksumResults s).event = s.event := rfl
@[simp] theorem checksumResults_ie (s : State) : (checksumResults s).ie = s.ie := rfl
@[simp] theorem checksumResults_phase (s : State) : (checksumResults s).phase = s.phase := rfl
@[simp] theorem checksumResults_cmd (s : State) : (checksumResults s).cmd = s.cmd := rfl
@[simp] theorem checksumResults_wrk (s : State) : (checksumResults s).wrk = s.wrk := rfl
@[simp] theorem checksumResults_agenda (s : State) : (checksumResults s).agenda = s.agenda := rfl
@[simp] theorem checksumResults_reply (s : State) : (checksumResults s).reply = s.reply := rfl

/-! ### `indexResults` -/

@[simp] theorem indexResults_ent (g : List Nat) (s : State) : (indexResults g s).ent = s.ent := rfl
@[simp] theorem indexResults_entN (g : List Nat) (s : State) : (indexResults g s).entN = s.entN := rfl
@[simp] theorem indexResults_cs (g : List Nat) (s : State) : (indexResults g s).cs = s.cs := rfl
@[simp] theorem indexResults_csw (g : List Nat) (s : State) : (indexResults g s).csw = s.csw := rfl
@[simp] theorem indexResults_csValid (g : List Nat) (s : State) : (indexResults g s).csValid = s.csValid := rfl
@[simp] theorem indexResults_idx (g : List Nat) (s : State) : (indexResults g s).idx = indexRegs g := rfl
@[simp] theorem indexResults_idxCnt (g : List Nat) (s : State) : (indexResults g s).idxCnt = BitVec.ofNat 5 g.length := rfl
@[simp] theorem indexResults_idxValid (g : List Nat) (s : State) : (indexResults g s).idxValid = true := rfl
@[simp] theorem indexResults_mn (g : List Nat) (s : State) : (indexResults g s).mn = s.mn := rfl
@[simp] theorem indexResults_mnLen (g : List Nat) (s : State) : (indexResults g s).mnLen = s.mnLen := rfl
@[simp] theorem indexResults_pp (g : List Nat) (s : State) : (indexResults g s).pp = s.pp := rfl
@[simp] theorem indexResults_ppLen (g : List Nat) (s : State) : (indexResults g s).ppLen = s.ppLen := rfl
@[simp] theorem indexResults_ppPresent (g : List Nat) (s : State) : (indexResults g s).ppPresent = s.ppPresent := rfl
@[simp] theorem indexResults_seed (g : List Nat) (s : State) : (indexResults g s).seed = s.seed := rfl
@[simp] theorem indexResults_seedValid (g : List Nat) (s : State) : (indexResults g s).seedValid = s.seedValid := rfl
@[simp] theorem indexResults_lastop (g : List Nat) (s : State) : (indexResults g s).lastop = s.lastop := rfl
@[simp] theorem indexResults_event (g : List Nat) (s : State) : (indexResults g s).event = s.event := rfl
@[simp] theorem indexResults_ie (g : List Nat) (s : State) : (indexResults g s).ie = s.ie := rfl
@[simp] theorem indexResults_phase (g : List Nat) (s : State) : (indexResults g s).phase = s.phase := rfl
@[simp] theorem indexResults_cmd (g : List Nat) (s : State) : (indexResults g s).cmd = s.cmd := rfl
@[simp] theorem indexResults_wrk (g : List Nat) (s : State) : (indexResults g s).wrk = s.wrk := rfl
@[simp] theorem indexResults_agenda (g : List Nat) (s : State) : (indexResults g s).agenda = s.agenda := rfl
@[simp] theorem indexResults_reply (g : List Nat) (s : State) : (indexResults g s).reply = s.reply := rfl

/-! ### `seedResults` -/

@[simp] theorem seedResults_ent (s : State) : (seedResults s).ent = s.ent := rfl
@[simp] theorem seedResults_entN (s : State) : (seedResults s).entN = s.entN := rfl
@[simp] theorem seedResults_cs (s : State) : (seedResults s).cs = s.cs := rfl
@[simp] theorem seedResults_csw (s : State) : (seedResults s).csw = s.csw := rfl
@[simp] theorem seedResults_csValid (s : State) : (seedResults s).csValid = s.csValid := rfl
@[simp] theorem seedResults_idx (s : State) : (seedResults s).idx = s.idx := rfl
@[simp] theorem seedResults_idxCnt (s : State) : (seedResults s).idxCnt = s.idxCnt := rfl
@[simp] theorem seedResults_idxValid (s : State) : (seedResults s).idxValid = s.idxValid := rfl
@[simp] theorem seedResults_mn (s : State) : (seedResults s).mn = s.mn := rfl
@[simp] theorem seedResults_mnLen (s : State) : (seedResults s).mnLen = s.mnLen := rfl
@[simp] theorem seedResults_pp (s : State) : (seedResults s).pp = s.pp := rfl
@[simp] theorem seedResults_ppLen (s : State) : (seedResults s).ppLen = s.ppLen := rfl
@[simp] theorem seedResults_ppPresent (s : State) : (seedResults s).ppPresent = s.ppPresent := rfl
@[simp] theorem seedResults_seed (s : State) : (seedResults s).seed = s.seed.setBytes Config.dkLen (pbkdf2 (password s) (salt s)) := rfl
@[simp] theorem seedResults_seedValid (s : State) : (seedResults s).seedValid = true := rfl
@[simp] theorem seedResults_lastop (s : State) : (seedResults s).lastop = s.lastop := rfl
@[simp] theorem seedResults_event (s : State) : (seedResults s).event = s.event := rfl
@[simp] theorem seedResults_ie (s : State) : (seedResults s).ie = s.ie := rfl
@[simp] theorem seedResults_phase (s : State) : (seedResults s).phase = s.phase := rfl
@[simp] theorem seedResults_cmd (s : State) : (seedResults s).cmd = s.cmd := rfl
@[simp] theorem seedResults_wrk (s : State) : (seedResults s).wrk = s.wrk := rfl
@[simp] theorem seedResults_agenda (s : State) : (seedResults s).agenda = s.agenda := rfl
@[simp] theorem seedResults_reply (s : State) : (seedResults s).reply = s.reply := rfl

/-! ### `atTurn` -/

@[simp] theorem atTurn_ent (rest : List Turn) (s : State) : (s.atTurn rest).ent = s.ent := rfl
@[simp] theorem atTurn_entN (rest : List Turn) (s : State) : (s.atTurn rest).entN = s.entN := rfl
@[simp] theorem atTurn_cs (rest : List Turn) (s : State) : (s.atTurn rest).cs = s.cs := rfl
@[simp] theorem atTurn_csw (rest : List Turn) (s : State) : (s.atTurn rest).csw = s.csw := rfl
@[simp] theorem atTurn_csValid (rest : List Turn) (s : State) : (s.atTurn rest).csValid = s.csValid := rfl
@[simp] theorem atTurn_idx (rest : List Turn) (s : State) : (s.atTurn rest).idx = s.idx := rfl
@[simp] theorem atTurn_idxCnt (rest : List Turn) (s : State) : (s.atTurn rest).idxCnt = s.idxCnt := rfl
@[simp] theorem atTurn_idxValid (rest : List Turn) (s : State) : (s.atTurn rest).idxValid = s.idxValid := rfl
@[simp] theorem atTurn_mn (rest : List Turn) (s : State) : (s.atTurn rest).mn = s.mn := rfl
@[simp] theorem atTurn_mnLen (rest : List Turn) (s : State) : (s.atTurn rest).mnLen = s.mnLen := rfl
@[simp] theorem atTurn_pp (rest : List Turn) (s : State) : (s.atTurn rest).pp = s.pp := rfl
@[simp] theorem atTurn_ppLen (rest : List Turn) (s : State) : (s.atTurn rest).ppLen = s.ppLen := rfl
@[simp] theorem atTurn_ppPresent (rest : List Turn) (s : State) : (s.atTurn rest).ppPresent = s.ppPresent := rfl
@[simp] theorem atTurn_seed (rest : List Turn) (s : State) : (s.atTurn rest).seed = s.seed := rfl
@[simp] theorem atTurn_seedValid (rest : List Turn) (s : State) : (s.atTurn rest).seedValid = s.seedValid := rfl
@[simp] theorem atTurn_lastop (rest : List Turn) (s : State) : (s.atTurn rest).lastop = s.lastop := rfl
@[simp] theorem atTurn_event (rest : List Turn) (s : State) : (s.atTurn rest).event = s.event := rfl
@[simp] theorem atTurn_ie (rest : List Turn) (s : State) : (s.atTurn rest).ie = s.ie := rfl
@[simp] theorem atTurn_phase (rest : List Turn) (s : State) : (s.atTurn rest).phase = s.phase := rfl
@[simp] theorem atTurn_cmd (rest : List Turn) (s : State) : (s.atTurn rest).cmd = s.cmd := rfl
@[simp] theorem atTurn_wrk (rest : List Turn) (s : State) : (s.atTurn rest).wrk = s.wrk := rfl
@[simp] theorem atTurn_agenda (rest : List Turn) (s : State) : (s.atTurn rest).agenda = rest := rfl
@[simp] theorem atTurn_reply (rest : List Turn) (s : State) : (s.atTurn rest).reply = none := rfl

end Sys2Proof.Machine
end

