-- ==== Sys2Proof/Laws/Ops.lean ====
section
/-! SUPPORT. For each shared operation, once, everything it can do. -/

namespace Sys2Proof.Machine

/-- The write of a legal word raises the error its pre-check names, or is the accept. -/
theorem issue_cases (i : Instr) (check : Option Event) (f : State → State) (s : State) :
    (∃ e, check = some e ∧ issue i check f s = raise e s) ∨ (check = none ∧ issue i check f s = accept i f s) := by
  cases check with
  | none => exact .inr ⟨rfl, rfl⟩
  | some e => exact .inl ⟨e, rfl, rfl⟩

/-- In IDLE a command's life cycle is the write of its word. -/
theorem lifeCycle_idle (i : Instr) (check : State → Option Event) (f : State → State) (commit : State → Commit)
    (s : State) (h : s.phase = .idle) :
    lifeCycle i check f commit s = .next (issue i (check s) f s) := by
  unfold lifeCycle
  rw [h]

/-- In RUN a command's life cycle is its completion. -/
theorem lifeCycle_run (i : Instr) (check : State → Option Event) (f : State → State) (commit : State → Commit)
    (s : State) (h : s.phase = .run) :
    lifeCycle i check f commit s = complete s (commit s) := by
  unfold lifeCycle
  rw [h]

/-- In FAULT a command's life cycle does nothing. -/
theorem lifeCycle_fault (i : Instr) (check : State → Option Event) (f : State → State) (commit : State → Commit)
    (s : State) (h : s.phase = .fault) :
    lifeCycle i check f commit s = .next s := by
  unfold lifeCycle
  rw [h]

/-- Everything a life cycle that answers a next state can do: an error, an accept, a completion, a fault entry, or,
in FAULT, nothing. -/
theorem lifeCycle_next (i : Instr) (check : State → Option Event) (f : State → State) (commit : State → Commit)
    (s t : State) (h : lifeCycle i check f commit s = .next t) :
    (s.phase = .idle ∧ ∃ e, check s = some e ∧ t = raise e s) ∨
    (s.phase = .idle ∧ check s = none ∧ t = accept i f s) ∨
    (s.phase = .run ∧ ∃ r, commit s = .results r ∧ t = finish r) ∨
    (s.phase = .run ∧ commit s = .assertion ∧ t = faultEntry s) ∨
    (s.phase = .fault ∧ t = s) := by
  cases hp : s.phase with
  | idle =>
    rw [lifeCycle_idle _ _ _ _ _ hp] at h
    cases h
    rcases issue_cases i (check s) f s with ⟨e, hc, ht⟩ | ⟨hc, ht⟩
    · exact .inl ⟨rfl, e, hc, ht⟩
    · exact .inr (.inl ⟨rfl, hc, ht⟩)
  | run =>
    rw [lifeCycle_run _ _ _ _ _ hp] at h
    cases hc : commit s with
    | results r =>
      rw [hc] at h
      cases h
      exact .inr (.inr (.inl ⟨rfl, r, rfl, rfl⟩))
    | assertion =>
      rw [hc] at h
      cases h
      exact .inr (.inr (.inr (.inl ⟨rfl, rfl, rfl⟩)))
    | refused =>
      rw [hc] at h
      cases h
  | fault =>
    rw [lifeCycle_fault _ _ _ _ _ hp] at h
    cases h
    exact .inr (.inr (.inr (.inr ⟨rfl, rfl⟩)))

/-- The work of `CSUM` in range. -/
theorem csumCommit_of_ok (s : State) (h : entropyOk s = true) : csumCommit s = .results (checksumResults s) :=
  if_pos h

/-- The work of `DERIVE` in range. -/
theorem deriveCommit_of_ok (s : State) (hm : mnLenOk s = true) (hp : ppLenOk s = true) :
    deriveCommit s = .results (seedResults s) := by
  unfold deriveCommit
  rw [hm, hp]
  rfl

/-- A checksum of the wrong width is a failed assertion of `PACK`. -/
theorem packCommit_of_width (s : State) (h : 4 * s.csw.toNat ≠ s.entN.toNat) : packCommit s = .assertion := by
  unfold packCommit
  rw [if_pos h]

/-- The work of `ENCODE` in range is that of `PACK` on the results of `CSUM`. -/
theorem encodeCommit_of_ok (s : State) (h : entropyOk s = true) :
    encodeCommit s = packCommit (checksumResults s) := by
  unfold encodeCommit
  rw [csumCommit_of_ok s h]

end Sys2Proof.Machine
end

