-- ==== Sys2Proof/Laws/Packer.lean ====
section
/-! SUPPORT. The packer: the length of the bit string, the bound on a group, and that the assertions hold when the
checksum has its width. -/

namespace Sys2Proof.Machine

/-- The bit string has `8N + CSW` bits. -/
@[simp] theorem length_flatBits (s : State) : (flatBits s).length = 8 * s.entN.toNat + s.csw.toNat := by
  simp [flatBits]

/-- Eleven bits make at most 2047. -/
theorem group_le (bits : List Bool) (k : Nat) : group bits k ≤ Config.indexMax := by
  have hb : ∀ b : Bool, b.toNat ≤ 1 := fun b => by cases b <;> decide
  have := fun j => hb (bits.getD (Config.groupBits * k + j) false)
  simp only [group, Config.groupBits, Config.indexMax, List.range_succ, List.range_zero, List.nil_append,
    List.cons_append, List.map_cons, List.map_nil, List.sum_cons, List.sum_nil]
  have h0 := this 0
  have h1 := this 1
  have h2 := this 2
  have h3 := this 3
  have h4 := this 4
  have h5 := this 5
  have h6 := this 6
  have h7 := this 7
  have h8 := this 8
  have h9 := this 9
  have h10 := this 10
  simp only [Config.groupBits] at h0 h1 h2 h3 h4 h5 h6 h7 h8 h9 h10
  omega

/-- Every index is within its bound, so the second assertion cannot fail. -/
theorem groups_le (bits : List Bool) : (groups bits).all (· ≤ Config.indexMax) = true := by
  simp only [groups, List.all_map, List.all_eq_true, Function.comp, decide_eq_true_eq]
  exact fun k _ => group_le bits k

@[simp] theorem length_groups (bits : List Bool) : (groups bits).length = bits.length / Config.groupBits := by
  simp [groups]

/-- A supported length is at most the number of entropy registers, and four times its checksum's width. -/
theorem entropyOk_sizes (s : State) (h : entropyOk s = true) :
    s.entN.toNat ≤ Config.entBytes ∧ 4 * checksumBits s = s.entN.toNat := by
  simp [entropyOk, Config.nset] at h
  unfold Config.entBytes checksumBits
  omega

/-- The work of `PACK` when the checksum has its width and the entropy has its registers. -/
theorem packCommit_of_ok (s : State) (hw : 4 * s.csw.toNat = s.entN.toNat) (h : s.entN.toNat ≤ Config.entBytes) :
    packCommit s = .results (indexResults (groups (flatBits s)) s) := by
  unfold packCommit
  rw [if_neg (not_not.2 hw), if_neg (by omega), groups_le]
  rfl

end Sys2Proof.Machine
end

