-- ==== Sys2Proof/Laws/PerInstr.lean ====
section
/-! SUPPORT. Statements about every instruction, one lemma per constructor. -/

namespace Sys2Proof.Laws.FieldsRoundTrip

/-- The fields of an instruction's word are the fields it is written with, and they are well formed. -/
def Statement (i : Instr) : Prop := rawOf (Sys2Proof.encode i) = i.raw ∧ i.wellFormed = true

theorem nop : Statement .nop := ⟨by decide, by decide⟩

theorem csum : Statement .csum := ⟨by decide, by decide⟩

theorem pack : Statement .pack := ⟨by decide, by decide⟩

theorem encode : Statement .encode := ⟨by decide, by decide⟩

theorem derive : Statement .derive := ⟨by decide, by decide⟩

theorem clear (groups : BitVec 3) : Statement (.clear groups) := by
  revert groups
  unfold Statement
  decide

end Sys2Proof.Laws.FieldsRoundTrip
end

