-- ==== Sys2Proof/Laws/Port.lean ====
section
/-! SUPPORT. What a step can do, turn by turn, and what a write transaction can do. -/

namespace Sys2Proof.Machine

/-- With nothing to come a step is the engine's turn. -/
theorem step_nil (s : State) (h : s.agenda = []) : step s = engineTurn (s.atTurn []) := by
  unfold step nextTurn
  rw [h]

/-- Otherwise it is the first turn of the agenda. -/
theorem step_cons (s : State) (t : Turn) (rest : List Turn) (h : s.agenda = t :: rest) :
    step s = runTurn t (s.atTurn rest) := by
  unfold step nextTurn
  rw [h]

/-- The engine's turn without a command in flight. -/
theorem engineTurn_not_run (s : State) (h : s.phase ≠ .run) : engineTurn s = .next s := by
  unfold engineTurn
  cases hp : s.phase with
  | idle => rfl
  | run => exact absurd hp h
  | fault => rfl

/-- The engine's turn with a command in flight. -/
theorem engineTurn_run (s : State) (i : Instr) (h : s.phase = .run) (hd : decodeWord s.cmd = .ok i) :
    engineTurn s = exec i s := by
  unfold engineTurn
  rw [h]
  simp only [hd]

/-- Everything a write transaction that answers a next state can do. -/
theorem memWrite_next (a : Addr) (v : Word) (s t : State) (h : memWrite a v s = .next t) :
    t = raise .eAccess s ∨
    t = { s with event := eventAfterWrite s.event v } ∨
    t = { s with ie := ieAfterWrite v } ∨
    (s.phase = .fault ∧ t = s) ∨
    (s.phase = .run ∧ t = raise .eBusy s) ∨
    (s.phase = .idle ∧ target a = some .cmd ∧ writeCmd v s = .next t) ∨
    (s.phase = .idle ∧ ∃ r, target a = some r ∧ r.readOnly = false ∧ t = writeInput r v s) := by
  unfold memWrite at h
  cases ha : target a with
  | none =>
    rw [ha] at h
    cases h
    exact .inl rfl
  | some r =>
    simp only [ha] at h
    split_ifs at h with hro hev hie
    · cases h
      exact .inl rfl
    · cases h
      exact .inr (.inl rfl)
    · cases h
      exact .inr (.inr (.inl rfl))
    · unfold writePhased at h
      cases hp : s.phase with
      | fault =>
        rw [hp] at h
        cases h
        exact .inr (.inr (.inr (.inl ⟨rfl, rfl⟩)))
      | run =>
        rw [hp] at h
        cases h
        exact .inr (.inr (.inr (.inr (.inl ⟨rfl, rfl⟩))))
      | idle =>
        simp only [hp] at h
        split_ifs at h with hc
        · exact .inr (.inr (.inr (.inr (.inr (.inl ⟨rfl, hc ▸ rfl, h⟩)))))
        · cases h
          exact .inr (.inr (.inr (.inr (.inr (.inr ⟨rfl, r, rfl, by simpa using hro, rfl⟩)))))

/-- What a write of `CMD` in IDLE that answers a next state can do. -/
theorem writeCmd_next (v : Word) (s t : State) (h : writeCmd v s = .next t) :
    (∃ e, decodeWord v = .error e ∧ t = raise .eIllcmd s) ∨ (∃ i, decodeWord v = .ok i ∧ exec i s = .next t) := by
  unfold writeCmd at h
  cases hd : decodeWord v with
  | error e =>
    rw [hd] at h
    cases h
    exact .inl ⟨e, rfl, rfl⟩
  | ok i =>
    rw [hd] at h
    exact .inr ⟨i, rfl, h⟩

/-- Every command is a life cycle: its word, its pre-check, what its accept invalidates, its work. -/
theorem exec_lifeCycle (i : Instr) :
    ∃ check f commit, ∀ s, exec i s = lifeCycle i check f commit s := by
  cases i with
  | nop => exact ⟨noCheck, id, .results, fun _ => rfl⟩
  | csum => exact ⟨entropyCheck, invalidateEntropySide, csumCommit, fun _ => rfl⟩
  | pack => exact ⟨packCheck, invalidateIndices, packCommit, fun _ => rfl⟩
  | encode => exact ⟨entropyCheck, invalidateEntropySide, encodeCommit, fun _ => rfl⟩
  | derive => exact ⟨deriveCheck, invalidateSeed, deriveCommit, fun _ => rfl⟩
  | clear g => exact ⟨noCheck, id, fun t => .results (clearGroups g t), fun _ => rfl⟩

/-- An internal step changes WRK and nothing else. -/
theorem workStep_eq (s : State) : workStep s = { s with wrk := (workStep s).wrk } := by
  unfold workStep
  split <;> rfl

end Sys2Proof.Machine
end

