-- ==== Sys2Proof/Tests/Slice0.lean ====
section
/-! SUPPORT. Tests whose expected values are printed in spec/95_test_vectors.md (or the rule named), and for every
statement of Obligations.lean that has hypotheses a state and operands that meet them. -/

namespace Sys2Proof.Tests

open Sys2Proof Sys2Proof.Machine

/-! ### Helpers -/

/-- The reset state with turns to come. -/
def queue (turns : List Turn) : State := { State.reset with agenda := turns }

/-- A command in flight on the reset state's registers, but for `ENT_N`. -/
def inFlight (i : Instr) (n : Word) : State :=
  { State.reset with entN := n, phase := .run, cmd := encode i, lastop := (encode i).extractLsb' 0 8 }

/-- The state after `n` steps, if none of them stops. -/
def after : Nat → State → Option State
  | 0, s => some s
  | n + 1, s =>
    match step s with
    | .next t => after n t
    | .fault _ => none
    | .refused _ => none

/-- What a host reads of a run of `n` steps from `s`: STATUS, EVENT, CSUM_OUT, IDX_CNT. -/
def view (n : Nat) (s : State) : Option (Word × Word × Word × Nat) :=
  (after n s).map fun t => (statusWord t, eventWord t, csumOutWord t, t.idxCnt.toNat)

/-! ### Well-formedness: each check refuses an ill-formed term (R79) -/

theorem test_rsv_refused : (RawCommand.mk 0x00 0 1).rsvZero = false ∧ (RawCommand.mk 0x00 0 1).wellFormed = false := by
  decide

theorem test_opc_refused : (RawCommand.mk 0x06 0 0).opcKnown = false ∧ (RawCommand.mk 0x06 0 0).wellFormed = false := by
  decide

theorem test_arg_refused :
    (RawCommand.mk 0x01 1 0).argAllowed = false ∧ (RawCommand.mk 0x01 1 0).wellFormed = false := by
  decide

/-! ### Decoding: the words of R78 bit by bit, illegal words of V19 by name -/

theorem test_decode_nop : decodeWord 0b000000000000000000000_000_00000000 = .ok .nop := by decide
theorem test_decode_csum : decodeWord 0b000000000000000000000_000_00000001 = .ok .csum := by decide
theorem test_decode_pack : decodeWord 0b000000000000000000000_000_00000010 = .ok .pack := by decide
theorem test_decode_encode : decodeWord 0b000000000000000000000_000_00000011 = .ok .encode := by decide
theorem test_decode_derive : decodeWord 0b000000000000000000000_000_00000100 = .ok .derive := by decide
theorem test_decode_clear : decodeWord 0b000000000000000000000_110_00000101 = .ok (.clear 0b110) := by decide

theorem test_decode_illegal :
    decodeWord 0x00000006 = .error .reservedOpcode ∧ decodeWord 0x000000FF = .error .reservedOpcode ∧
    decodeWord 0x00000100 = .error .argNotAllowed ∧ decodeWord 0x00000403 = .error .argNotAllowed ∧
    decodeWord 0x00000805 = .error .reservedField ∧ decodeWord 0xFFFFFFFF = .error .reservedField := by
  decide

/-- R55, R75: the bytes of `CLEAR ENTROPY, KDFIN`, lowest lane first, and a word cut short. -/
theorem test_decode_bytes :
    decode [0x05, 0x03, 0x00, 0x00, 0x2A] = .ok (.clear 0b011, [0x2A]) ∧ decode [0x05, 0x03, 0x00] = .error .truncated := by
  decide

/-! ### Hash functions -/

/-- H2. -/
theorem test_sha256_abc : sha256 [0x61, 0x62, 0x63] =
    [0xba, 0x78, 0x16, 0xbf, 0x8f, 0x01, 0xcf, 0xea, 0x41, 0x41, 0x40, 0xde, 0x5d, 0xae, 0x22, 0x23] ++
    [0xb0, 0x03, 0x61, 0xa3, 0x96, 0x17, 0x7a, 0x9c, 0xb4, 0x10, 0xff, 0x61, 0xf2, 0x00, 0x15, 0xad] := by
  decide +kernel

/-- H5. -/
theorem test_sha512_abc : fromBE ((sha512 [0x61, 0x62, 0x63]).take 16) = 0xddaf35a193617abacc417349ae204131 := by
  decide +kernel

/-- H9: key "Jefe", message "what do ya want for nothing?". -/
theorem test_hmac512_jefe : fromBE ((hmac512 [0x4A, 0x65, 0x66, 0x65]
    ([0x77, 0x68, 0x61, 0x74, 0x20, 0x64, 0x6F, 0x20, 0x79, 0x61, 0x20, 0x77, 0x61, 0x6E, 0x74, 0x20] ++
      [0x66, 0x6F, 0x72, 0x20, 0x6E, 0x6F, 0x74, 0x68, 0x69, 0x6E, 0x67, 0x3F])).take 8) = 0x164b7a7bfcf819e2 := by
  decide +kernel

/-- V24: `U_1` of the empty mnemonic without a passphrase. -/
theorem test_kdf_first : fromBE ((kdfAfter [] Config.saltPrefix 1).2.take 8) = 0xa1529f8795c5e8e4 := by
  decide +kernel

/-! ### Commands -/

/-- V17. -/
theorem test_nop_accept : view 1 (queue [.write 0x008 0]) = some (0x00000001, 0, 0, 0) := by decide +kernel
theorem test_nop_completion : view 2 (queue [.write 0x008 0]) = some (0x00000000, 0x00000001, 0, 0) := by decide +kernel

/-- V1. -/
theorem test_csum_16_zero_bytes :
    view 1 (inFlight .csum 16) = some (0x00000104, 0x00000001, 0x00030430, 0) := by decide +kernel

/-- V5: the eight-bit checksum is not shifted away. -/
theorem test_csum_32_zero_bytes :
    view 1 (inFlight .csum 32) = some (0x00000104, 0x00000001, 0x00660866, 0) := by decide +kernel

/-- R114's example (V7). -/
theorem test_pack_7f :
    (after 1 { inFlight .pack 16 with
      ent := (List.range 16).map (fun i => (i, 0x7F)), cs := 0x80, csw := 4, csValid := true }).map
        (fun t => t.idx.toList.map BitVec.toNat) =
      some ([1019, 2015, 1790, 2039, 1983, 1533, 2031, 1919, 1019, 2015, 1790, 2040] ++ List.replicate 12 0) := by
  decide +kernel

/-- V39: the fault entry from a corrupted state. -/
theorem test_pack_fault :
    view 1 { inFlight .pack 16 with csw := 5, csValid := true } = some (0x00000202, 0x00000100, 0, 0) := by
  decide +kernel

/-- V5. -/
theorem test_encode_32_zero_bytes :
    view 1 (inFlight .encode 32) = some (0x0000030C, 0x00000001, 0x00660866, 24) ∧
    (after 1 (inFlight .encode 32)).map (fun t => (t.idx[22], t.idx[23])) = some (0, 102) := by
  decide +kernel

/-- V24 and R195: accepted right after reset. -/
theorem test_derive_accept : view 1 (queue [.write 0x008 4]) = some (0x00000401, 0, 0, 0) := by decide +kernel

/-- V32. -/
theorem test_derive_too_long :
    view 1 { queue [.write 0x008 4] with mnLen := 1025 } = some (0, 0x00000010, 0, 0) := by decide +kernel

/-- V18, the row of 0x00000405 and of 0x00000105, on flags and `ENT_N`. -/
theorem test_clear_seed :
    (after 1 { inFlight (.clear 4) 16 with csValid := true, idxValid := true, seedValid := true }).map
      (fun t => (statusWord t, t.entN)) = some (0x0000050C, 16) := by
  decide +kernel
theorem test_clear_entropy :
    (after 1 { inFlight (.clear 1) 16 with csValid := true, idxValid := true, seedValid := true }).map
      (fun t => (statusWord t, t.entN)) = some (0x00000510, 0) := by
  decide +kernel

/-! ### The port -/

/-- V34. -/
theorem test_byte_lanes :
    (after 1 (queue [.write 0x400 0x6E616261])).map (fun t => t.mn) =
      some [(0, 0x61), (1, 0x62), (2, 0x61), (3, 0x6E)] := by
  decide +kernel

/-- V35 and V14. -/
theorem test_constant_registers :
    (after 1 (queue [.read 0x000])).map (fun t => t.reply) = some (some 0x50425331) ∧
    (after 1 (queue [.read 0x004])).map (fun t => t.reply) = some (some 0x04000400) ∧
    view 1 (queue [.write 0x004 0]) = some (0, 0x00000040, 0, 0) ∧
    view 1 { queue [.write 0x008 1] with entN := 0x00000110 } = some (0, 0x00000004, 0, 0) := by
  decide +kernel

/-- V36. -/
theorem test_reserved_bits :
    (after 2 (queue [.write 0x02C 0xFFFFFFFE, .read 0x02C])).map (fun t => t.reply) = some (some 0) ∧
    (after 2 (queue [.write 0x014 0xFFFFFFFF, .read 0x014])).map (fun t => t.reply) = some (some 0x0000017F) := by
  decide +kernel

/-- V37. -/
theorem test_write_one_to_clear :
    view 1 { queue [.write 0x010 0x00000008] with event := 0x029 } = some (0, 0x00000021, 0, 0) := by
  decide +kernel

/-! ### The statements' hypotheses can be met

One witness for each statement that has hypotheses, and for each clause at a boundary of its range. -/

/-- The reset state with given text lengths. -/
def texts (mnLen : Word) (present : Bool) (ppLen : Word) : State :=
  { State.reset with mnLen := mnLen, ppPresent := present, ppLen := ppLen }

/-- A valid seed held in IDLE. -/
def seeded : State := { State.reset with seedValid := true }

/-- The fault phase. -/
def faulted : State := { State.reset with phase := .fault, event := 0x100 }

/-- `PACK` in flight with the checksum of sixteen zero bytes (V1). -/
def packing : State := { inFlight .pack 16 with cs := 0x30, csw := 4, csValid := true }

theorem witness_IllegalWordRaisesEIllcmd :
    ∀ n ∈ [0x00000800, 0x00000006, 0x00000101, 0xFFFFFFFF], illegalWord (BitVec.ofNat 32 n) ∧
      (queue [.write 0x008 (BitVec.ofNat 32 n)]).phase = .idle ∧
      (queue [.write 0x008 (BitVec.ofNat 32 n)]).agenda = [.write 0x008 (BitVec.ofNat 32 n)] := by
  decide +kernel
theorem witness_legal_words : 
    ∀ n ∈ [0x00000000, 0x00000004, 0x00000005, 0x00000705], ¬ illegalWord (BitVec.ofNat 32 n) := by
  decide +kernel
theorem witness_DecodeInvertsEncode : (Instr.clear 7).wellFormed = true ∧ Instr.nop.wellFormed = true := by decide
theorem witness_EncodeInvertsDecode : decodeWord 0x00000705 = .ok (.clear 7) := by decide
theorem witness_StepRunsTheWrittenCommand :
    (queue [.write 0x008 0x00000705]).phase = .idle ∧
    (queue [.write 0x008 0x00000705]).agenda = [.write 0x008 0x00000705] ∧
    decodeWord 0x00000705 = .ok (.clear 7) := by
  decide
theorem witness_StepRunsTheCommandInFlight :
    (inFlight .csum 16).phase = .run ∧ decodeWord (inFlight .csum 16).cmd = .ok .csum ∧
    (inFlight .csum 16).agenda = [] := by
  decide
theorem witness_PlacedWordIsTheNextInstruction : (Instr.clear 7).wellFormed = true := by decide
theorem witness_ResetFromEveryState : ({ faulted with agenda := [.reset] } : State).agenda = [.reset] := by decide

/-- The reset state satisfies the invariants, and so do the other witnesses below. -/
theorem inv_reset : State.reset.Inv := by
  constructor
  · constructor <;> exact ⟨by decide, by decide⟩
  all_goals first | decide | simp [State.reset]

theorem inv_queue (turns : List Turn) : (queue turns).Inv := by
  obtain ⟨⟨a, b, c, d⟩, h1, h2, h3, h4, h5, h6, h7, h8, h9, h10⟩ := inv_reset
  exact ⟨⟨a, b, c, d⟩, h1, h2, h3, h4, h5, h6, h7, h8, h9, h10⟩

theorem inv_seeded : seeded.Inv := by
  constructor
  · constructor <;> exact ⟨by decide, by decide⟩
  all_goals first | decide | simp [seeded, State.reset]

theorem inv_faulted : faulted.Inv := by
  constructor
  · constructor <;> exact ⟨by decide, by decide⟩
  all_goals first | decide | simp [faulted, State.reset]

theorem inv_inFlight (i : Instr) (hp : i ≠ .pack) : (inFlight i 16).Inv := by
  constructor
  case memory => exact ⟨inv_reset.memory.ent, inv_reset.memory.mn, inv_reset.memory.pp, inv_reset.memory.seed⟩
  case run =>
    intro _
    refine ⟨i, rfl, rfl, ?_⟩
    cases i with
    | pack => exact absurd rfl hp
    | nop => trivial
    | clear g => trivial
    | csum => exact ⟨by decide, rfl, rfl⟩
    | encode => exact ⟨by decide, rfl, rfl⟩
    | derive => exact ⟨by decide, by decide, rfl⟩
  all_goals simp [inFlight, State.reset]

theorem inv_packing : packing.Inv := by
  constructor
  · constructor <;> exact ⟨by decide, by decide⟩
  case checksum => exact fun _ => by decide +kernel
  case run => exact fun _ => ⟨.pack, rfl, rfl, by decide, rfl, rfl⟩
  all_goals simp [packing, inFlight, State.reset]

theorem witness_EveryStepKeepsTheInvariants :
    (∃ t, seeded.Inv ∧ step seeded = .next t) ∧ (∃ t, faulted.Inv ∧ step faulted = .next t) ∧
    ∃ t, (inFlight .nop 16).Inv ∧ step (inFlight .nop 16) = .next t :=
  ⟨⟨_, inv_seeded, rfl⟩, ⟨_, inv_faulted, rfl⟩, ⟨_, inv_inFlight .nop (by decide), rfl⟩⟩
theorem witness_NoStepStopsOrFaults : packing.Inv ∧ (inFlight .derive 16).Inv :=
  ⟨inv_packing, inv_inFlight .derive (by decide)⟩
theorem witness_EveryStepKeepsTheMemoryForm :
    ∃ t, (queue [.write 0x400 0x6E616261]).MemoryInv ∧ step (queue [.write 0x400 0x6E616261]) = .next t :=
  ⟨_, (inv_queue _).memory, rfl⟩

theorem witness_SeedComesFromDerive_held : ∃ t, seeded.Inv ∧ step seeded = .next t ∧ t.seedValid = true :=
  ⟨_, inv_seeded, rfl, rfl⟩
theorem witness_SeedComesFromDerive_derived :
    ∃ t, (inFlight .derive 16).Inv ∧ step (inFlight .derive 16) = .next t ∧ t.seedValid = true :=
  ⟨_, inv_inFlight .derive (by decide), rfl, rfl⟩
theorem witness_OnlyResetLeavesFault :
    (∃ t, faulted.phase = .fault ∧ step faulted = .next t) ∧
    ∃ t, ({ faulted with agenda := [.reset] } : State).phase = .fault ∧
      step { faulted with agenda := [.reset] } = .next t :=
  ⟨⟨_, rfl, rfl⟩, ⟨_, rfl, rfl⟩⟩
theorem witness_RegistersFrozenInFlight :
    ∃ t, ({ inFlight .nop 16 with agenda := [.write 0x018 20] } : State).phase = .run ∧
      Turn.write 0x018 20 ≠ .complete ∧ Turn.write 0x018 20 ≠ .reset ∧
      step { inFlight .nop 16 with agenda := [.write 0x018 20] } = .next t :=
  ⟨_, rfl, by decide, by decide, rfl⟩
theorem witness_LastopChangesOnlyAtAccept :
    ∃ t, step (queue [.write 0x008 5]) = .next t ∧ t.lastop ≠ (queue [.write 0x008 5]).lastop :=
  ⟨_, rfl, by decide⟩
theorem witness_OneEventBitPerTransaction :
    ∃ t, step (queue [.read 0x002]) = .next t ∧ t.event.getLsbD 6 = true ∧
      (queue [.read 0x002]).event.getLsbD 6 = false :=
  ⟨_, rfl, by decide, by decide⟩
theorem witness_AcceptedCommandLeavesRun : packing.Inv ∧ packing.phase = .run := ⟨inv_packing, rfl⟩

theorem witness_UnsupportedLengthRaisesECfg :
    State.reset.phase = .idle ∧
    (∀ n ∈ [0, 15, 17, 33, 0x110], BitVec.ofNat 32 n ∉ [16#32, 20#32, 24#32, 28#32, 32#32]) ∧
    (queue [.write 0x018 17]).agenda = [.write 0x018 17] := by
  decide +kernel
theorem witness_PackWithoutChecksumRaisesESeq :
    ({ State.reset with entN := 32 } : State).phase = .idle ∧
    ({ State.reset with entN := 32 } : State).entN ∈ [16#32, 20#32, 24#32, 28#32, 32#32] ∧
    ({ State.reset with entN := 32 } : State).csValid = false := by
  decide
theorem witness_OverlongTextRaisesELen :
    Config.mnMax < (texts 1025 false 0).mnLen.toNat ∧
    ((texts 0 true 1025).ppPresent = true ∧ Config.ppMax < (texts 0 true 1025).ppLen.toNat) ∧
    (texts 1025 false 0).phase = .idle := by
  decide
theorem witness_texts_that_fit :
    (∀ s ∈ [texts 1024 true 1024, texts 0 false 1025],
      s.phase = .idle ∧ ¬ (Config.mnMax < s.mnLen.toNat ∨ (s.ppPresent = true ∧ Config.ppMax < s.ppLen.toNat))) := by
  simp [texts, State.reset, Config.mnMax, Config.ppMax]
theorem witness_FaultEntryZeroisesEverything :
    ({ inFlight .pack 16 with csw := 5 } : State).phase = .run ∧
    4 * ({ inFlight .pack 16 with csw := 5 } : State).csw.toNat ≠
      ({ inFlight .pack 16 with csw := 5 } : State).entN.toNat := by
  decide
theorem witness_CorruptedCommandsStopTheModel :
    exec .csum (inFlight .csum 17) = .fault .operandsRefused ∧
    exec .encode (inFlight .encode 0) = .fault .operandsRefused ∧
    exec .pack { inFlight .pack 36 with csw := 9 } = .fault .operandsRefused ∧
    exec .derive { inFlight .derive 0 with mnLen := 1025 } = .fault .operandsRefused ∧
    step { inFlight .nop 0 with cmd := 6 } = .fault .illegalInFlight :=
  ⟨rfl, rfl, rfl, rfl, rfl⟩

theorem witness_ReadTransaction :
    (∀ n ∈ [0x001, 0x003, 0x030, 0x0FC, 0x120, 0x13C, 0x1A0, 0x1BC, 0x200, 0x3FC, 0xC00,
      0xFFC], badAddr (BitVec.ofNat 12 n)) ∧
    (queue [.read 0xFFC]).agenda = [.read 0xFFC] := by
  decide +kernel
theorem witness_ReadTransaction_registers :
    (∀ n ∈ [0x000, 0x02C, 0x100, 0x11C, 0x140, 0x19C, 0x1C0, 0x1FC, 0x400, 0x7FC, 0x800,
      0xBFC], ¬ badAddr (BitVec.ofNat 12 n)) ∧
    (queue [.read 0xBFC]).agenda = [.read 0xBFC] := by
  decide +kernel
theorem witness_ReadTransaction_phases :
    faulted.Inv ∧ faulted.phase = .fault ∧ packing.Inv ∧ packing.phase = .run ∧ packing.cmd = encode .pack ∧
    (inFlight .derive 16).Inv ∧ (inFlight .derive 16).cmd = encode .derive ∧
    (inFlight .csum 16).Inv ∧ (inFlight .csum 16).cmd = encode .csum :=
  ⟨inv_faulted, rfl, inv_packing, rfl, rfl, inv_inFlight .derive (by decide), rfl, inv_inFlight .csum (by decide), rfl⟩
theorem witness_WriteTransaction :
    (∀ n ∈ [0x000, 0x004, 0x00C, 0x01C, 0x020, 0x140, 0x19C, 0x1C0, 0x1FC],
      readOnlyAddr (BitVec.ofNat 12 n)) ∧
    (∀ n ∈ [0x008, 0x018, 0x024, 0x028, 0x02C, 0x100, 0x11C, 0x400, 0x7FC, 0x800,
      0xBFC], inputAddr (BitVec.ofNat 12 n)) := by
  decide +kernel
theorem witness_WriteTransaction_states :
    decodeWord 6 = .error .reservedOpcode ∧ decodeWord 5 = .ok (.clear 0) ∧
    (queue [.write 0xBFC 7]).phase = .idle ∧ (queue [.write 0xBFC 7]).agenda = [.write 0xBFC 7] ∧
    faulted.phase = .fault ∧ (inFlight .nop 0).phase = .run := by
  decide
theorem witness_ByteLanesOfTheWindows :
    (∀ w ∈ [0, 7], w < 8 ∧ (queue [.write (BitVec.ofNat 12 (0x100 + 4 * w)) 9,
      .read (BitVec.ofNat 12 (0x100 + 4 * w))]).phase = .idle) ∧
    (∀ w ∈ [0, 255], w < Config.mnMax / 4 ∧ w < Config.ppMax / 4) ∧ (∀ w ∈ [0, 15], w < 16) ∧
    State.reset.MemoryInv :=
  ⟨by decide, by decide, by decide, inv_reset.memory⟩
theorem witness_ReadsAreIdempotent : (queue [.read 0x002, .read 0x002]).agenda = [.read 0x002, .read 0x002] := by decide
theorem witness_EventIsWriteOneToClear : (queue [.write 0x010 0x7F]).agenda = [.write 0x010 0x7F] := by decide
theorem witness_InterruptEnableRegister :
    (queue [.write 0x014 0x1FF, .read 0x014]).agenda = [.write 0x014 0x1FF, .read 0x014] := by
  decide
theorem witness_StatusRegisterFields : (queue [.write 0x00C 1]).agenda = [.write 0x00C 1] := by decide
theorem witness_ChecksumRegisterFields : State.reset.csw.toNat ≤ 8 ∧ ({ packing with csw := 8 } : State).csw.toNat ≤ 8 := by
  decide
theorem witness_OutputsReadZeroInFlight :
    (∀ i ∈ [Instr.csum, Instr.encode, Instr.derive],
      (inFlight i 16).Inv ∧ (inFlight i 16).phase = .run ∧ (inFlight i 16).cmd = encode i) ∧
    packing.Inv ∧ packing.phase = .run ∧ packing.cmd = encode .pack :=
  ⟨fun i hi => ⟨inv_inFlight i (by intro h; subst h; revert hi; decide), rfl, rfl⟩, inv_packing, rfl, rfl⟩

theorem witness_AcceptStartsTheCommand :
    State.reset.phase = .idle ∧ ({ State.reset with entN := 16 } : State).entN ∈ [16#32, 20#32, 24#32, 28#32, 32#32] ∧
    ({ State.reset with entN := 32, csValid := true } : State).entN ∈ [16#32, 20#32, 24#32, 28#32, 32#32] ∧
    ({ State.reset with entN := 32, csValid := true } : State).csValid = true ∧
    (texts 1024 true 1024).mnLen.toNat ≤ Config.mnMax ∧
    ((texts 1024 true 1024).ppPresent = true → (texts 1024 true 1024).ppLen.toNat ≤ Config.ppMax) := by
  decide
theorem witness_NopCompletes : State.reset.phase = .idle ∧ (inFlight .nop 0).phase = .run := by decide
theorem witness_ExtractionKeepsTheTopBits : 1 ≤ 1 ∧ 1 ≤ 8 ∧ 8 ≤ 8 := by decide
theorem witness_CsumCommitsTheChecksum :
    ∀ n ∈ [16, 32], (inFlight .csum (BitVec.ofNat 32 n)).phase = .run ∧
      (inFlight .csum (BitVec.ofNat 32 n)).entN ∈ [16#32, 20#32, 24#32, 28#32, 32#32] := by
  decide +kernel
theorem witness_PackCommitsTheGroups :
    packing.phase = .run ∧ 4 * packing.csw.toNat = packing.entN.toNat ∧ packing.entN.toNat ≤ 32 ∧
    4 * ({ inFlight .pack 32 with csw := 8 } : State).csw.toNat = (inFlight .pack 32).entN.toNat ∧
    4 * (inFlight .pack 0).csw.toNat = (inFlight .pack 0).entN.toNat := by
  decide
theorem witness_EncodeCommitsBothResults :
    ∀ n ∈ [16, 32], (inFlight .encode (BitVec.ofNat 32 n)).phase = .run ∧
      (inFlight .encode (BitVec.ofNat 32 n)).entN ∈ [16#32, 20#32, 24#32, 28#32, 32#32] := by
  decide +kernel
theorem witness_EncodeIsCsumThenPack :
    ({ State.reset with entN := 32 } : State).phase = .idle ∧
    ({ State.reset with entN := 32 } : State).entN ∈ [16#32, 20#32, 24#32, 28#32, 32#32] := by
  decide
theorem witness_IndicesAsOneInteger :
    packing.entN ∈ [16#32, 20#32, 24#32, 28#32, 32#32] ∧ packing.csw.toNat = packing.entN.toNat / 4 ∧
    0 < 3 * packing.entN.toNat / 4 ∧ 11 < 3 * packing.entN.toNat / 4 := by
  decide
theorem witness_IndicesDetermineTheEntropy :
    packing.entN ∈ [16#32, 20#32, 24#32, 28#32, 32#32] ∧ packing.csw.toNat = packing.entN.toNat / 4 ∧
    groups (flatBits packing) = groups (flatBits { packing with phase := .idle }) := by
  decide +kernel
theorem witness_DeriveCommitsTheSeed :
    ({ texts 1024 true 1024 with phase := .run } : State).phase = .run ∧
    ({ texts 1024 true 1024 with phase := .run } : State).MemoryInv ∧
    (texts 1024 true 1024).mnLen.toNat ≤ Config.mnMax ∧
    ((texts 1024 true 1024).ppPresent = true → (texts 1024 true 1024).ppLen.toNat ≤ Config.ppMax) :=
  ⟨rfl, ⟨inv_reset.memory.ent, inv_reset.memory.mn, inv_reset.memory.pp, inv_reset.memory.seed⟩, by decide, by decide⟩
theorem witness_SaltOfThePassphrase :
    ({ State.reset with ppPresent := true } : State).ppPresent = true ∧ State.reset.ppPresent = false ∧
    State.reset.ppLen = 0 := by
  decide
theorem witness_ClearZeroisesItsGroups : State.reset.phase = .idle ∧ (inFlight (.clear 7) 16).phase = .run := by decide
theorem witness_EntropyIsOneBlock :
    (List.replicate 16 (0 : Byte)).length ∈ [16, 20, 24, 28, 32] ∧
    (List.replicate 32 (0 : Byte)).length ∈ [16, 20, 24, 28, 32] := by
  decide
theorem witness_HmacOfKeyAndMessage :
    (List.replicate 128 (0x61 : Byte)).length ≤ 128 ∧ 128 < (List.replicate 129 (0x61 : Byte)).length := by
  simp
theorem witness_InternalStepsComputeTheSeed :
    ∀ n ∈ [1, 2048], 1 ≤ n ∧ n ≤ 2048 ∧ (inFlight .derive 0).phase = .run ∧
      (inFlight .derive 0).cmd = 0x00000004 ∧ (inFlight .derive 0).wrk = Working.zero := by
  decide +kernel
theorem witness_packing_completes : ∃ t, exec .pack packing = .next t := by
  refine ⟨finish (indexResults (groups (flatBits packing)) packing), (lifeCycle_run .pack packCheck invalidateIndices packCommit packing
    rfl).trans ?_⟩
  rw [packCommit_of_ok packing (by decide) (by decide)]
  rfl
theorem witness_IgnoredBytesChangeNoResult :
    (∀ n < packing.entN.toNat, Memory.get [(16, 1)] n = packing.ent.get n) ∧
    (∀ n < packing.mnLen.toNat, Memory.get [(0, 1)] n = packing.mn.get n) ∧ packing.ppPresent = false ∧
    ∃ t, exec .pack packing = .next t :=
  ⟨by decide, by decide, rfl, witness_packing_completes⟩

end Sys2Proof.Tests
end

/-! PROOFS of the family 10_state: the reset values (R43), STATUS (R31), the interrupt enable register (R33) and the
interrupt output (R42). First what a turn at one address does, then the bits of the registers, then the statements. -/

namespace Sys2Proof.Machine

/-! ### A transaction at the address of a register -/

/-- A read of a register's address leaves everything but the reply as it is (R58). -/
theorem memRead_of_target (a : Addr) (r : Target) (s : State) (h : target a = some r) :
    memRead a s = { s with reply := some (readTarget s r) } := by
  unfold memRead
  rw [h]

/-- A write of a register the host cannot write raises E_ACCESS alone, in every phase (R59 line 2). -/
theorem memWrite_of_readOnly (a : Addr) (r : Target) (v : Word) (s : State) (h : target a = some r)
    (hr : r.readOnly = true) : memWrite a v s = .next (raise .eAccess s) := by
  unfold memWrite
  rw [h]
  exact if_pos hr

/-- A write of IE stores the word's existing bits, in every phase (R33, R59 line 4). -/
theorem memWrite_of_ie (a : Addr) (v : Word) (s : State) (h : target a = some .ie) :
    memWrite a v s = .next { s with ie := ieAfterWrite v } := by
  unfold memWrite
  rw [h]
  rfl

/-- A step whose turn is the read of a register's address. -/
theorem step_read_of_target (s : State) (a : Addr) (r : Target) (rest : List Turn) (ht : target a = some r)
    (h : s.agenda = .read a :: rest) :
    step s = .next { s.atTurn rest with reply := some (readTarget (s.atTurn rest) r) } :=
  (step_cons s _ rest h).trans (congrArg Host.Outcome.next (memRead_of_target a r _ ht))

/-- A step whose turn is a write. -/
theorem step_write (s : State) (a : Addr) (v : Word) (rest : List Turn) (h : s.agenda = .write a v :: rest) :
    step s = memWrite a v (s.atTurn rest) :=
  step_cons s _ rest h

/-- Two steps, one after the other. -/
theorem reaches_two (s t u : State) (hst : step s = .next t) (htu : step t = .next u) : State.reaches 2 s u :=
  ⟨t, hst, u, htu, rfl⟩

/-! ### The bits of EVENT and IE -/

/-- The bits that exist are 6:0 and 8 (R32, R33). -/
theorem getLsbD_eventMask (n : Nat) : eventMask.getLsbD n = (decide (n ≤ 6) || decide (n = 8)) := by
  by_cases h : n < 9
  · revert n
    decide
  · rw [BitVec.getLsbD_of_ge _ _ (Nat.le_of_not_lt h)]
    simp only [Bool.false_eq, Bool.or_eq_false_iff, decide_eq_false_iff_not]
    omega

/-- The bits that exist are those below 9 but for the reserved bit 7. -/
theorem getLsbD_eventMask_iff (n : Nat) : eventMask.getLsbD n = true ↔ n < 9 ∧ n ≠ 7 := by
  rw [getLsbD_eventMask]
  simp only [Bool.or_eq_true, decide_eq_true_eq]
  omega

/-- What a register reads whose reserved bits are masked: the stored bit where the bit exists. -/
theorem getLsbD_masked (x : BitVec 9) (n : Nat) :
    ((x &&& eventMask).zeroExtend 32).getLsbD n = (x.getLsbD n && eventMask.getLsbD n) := by
  rw [BitVec.getLsbD_setWidth, BitVec.getLsbD_and]
  by_cases h : n < 32
  · simp [h]
  · simp [BitVec.getLsbD_of_ge x n (by omega)]

/-- A stored IE has the bits of the word written that exist (R33). -/
theorem getLsbD_ieAfterWrite (v : Word) (n : Nat) :
    (ieAfterWrite v).getLsbD n = (eventMask.getLsbD n && v.getLsbD n) := by
  unfold ieAfterWrite
  rw [BitVec.getLsbD_and, BitVec.getLsbD_extractLsb', Nat.zero_add]
  by_cases h : n < 9
  · simp [h, Bool.and_comm]
  · simp [BitVec.getLsbD_of_ge eventMask n (by omega)]

/-- IE reads back the word written, cut to the bits that exist (R33). -/
theorem ieWord_of_ieAfterWrite (s : State) (v : Word) (h : s.ie = ieAfterWrite v) :
    ieWord s = v &&& 0x0000017F := by
  have hmask : (0x0000017F : Word) = (eventMask &&& eventMask).zeroExtend 32 := by decide
  refine BitVec.eq_of_getLsbD_eq fun n _ => ?_
  unfold ieWord
  rw [h, hmask, BitVec.getLsbD_and, getLsbD_masked, getLsbD_masked, getLsbD_ieAfterWrite]
  cases eventMask.getLsbD n <;> simp

/-! ### The interrupt output -/

/-- The interrupt output in words (R33, R172). -/
theorem irq_iff (s : State) : irq s = true ↔ (eventWord s &&& ieWord s) ≠ 0 :=
  decide_eq_true_iff

/-- A word is not zero when one of its bits is set. -/
theorem ne_zero_iff_exists_getLsbD {w : Nat} (x : BitVec w) : x ≠ 0 ↔ ∃ n, x.getLsbD n = true := by
  constructor
  · intro hne
    by_contra! hnone
    exact hne (BitVec.eq_of_getLsbD_eq fun n _ => by simpa using hnone n)
  · rintro ⟨n, hn⟩ rfl
    simp at hn

/-- A bit of the conjunction of the two registers is an existing bit set in both. -/
theorem getLsbD_eventWord_and_ieWord (s : State) (n : Nat) :
    (eventWord s &&& ieWord s).getLsbD n = true ↔
      n < 9 ∧ n ≠ 7 ∧ s.event.getLsbD n = true ∧ s.ie.getLsbD n = true := by
  unfold eventWord ieWord
  rw [BitVec.getLsbD_and, getLsbD_masked, getLsbD_masked, ← and_assoc, ← getLsbD_eventMask_iff]
  simp only [Bool.and_eq_true]
  tauto

/-- Settles O32: `irq` says that EVENT & IE is not zero, and a word that is not zero has a bit set. -/
theorem interruptOutputLevel : Obligations.InterruptOutputLevel := by
  intro s
  calc irq s = true
    _ ↔ (eventWord s &&& ieWord s) ≠ 0 := irq_iff s
    _ ↔ ∃ n, (eventWord s &&& ieWord s).getLsbD n = true := ne_zero_iff_exists_getLsbD _
    _ ↔ _ := exists_congr (getLsbD_eventWord_and_ieWord s)

/-! ### STATUS -/

/-- The lowest bit of a word written with its lowest bit last. -/
theorem getLsbD_append_ofBool_zero {w : Nat} (x : BitVec w) (b : Bool) : (x ++ BitVec.ofBool b).getLsbD 0 = b := by
  rw [BitVec.getLsbD_append, if_pos Nat.one_pos, BitVec.getLsbD_ofBool]
  simp

/-- The other bits of a word written with its lowest bit last. -/
theorem getLsbD_append_ofBool_succ {w : Nat} (x : BitVec w) (b : Bool) (n : Nat) :
    (x ++ BitVec.ofBool b).getLsbD (n + 1) = x.getLsbD n := by
  simp [BitVec.getLsbD_append]

/-- The bits of STATUS (R31). -/
theorem getLsbD_statusWord (s : State) (n : Nat) :
    (statusWord s).getLsbD n =
      if n = 0 then decide (s.phase = .run)
      else if n = 1 then decide (s.phase = .fault)
      else if n = 2 then s.csValid
      else if n = 3 then s.idxValid
      else if n = 4 then s.seedValid
      else if 8 ≤ n ∧ n ≤ 15 then s.lastop.getLsbD (n - 8)
      else false := by
  unfold statusWord
  match n with
  | 0 => exact getLsbD_append_ofBool_zero _ _
  | 1 | 2 | 3 | 4 => simp only [getLsbD_append_ofBool_succ, getLsbD_append_ofBool_zero]; rfl
  | k + 5 =>
    have hk : k + 5 - 8 = k - 3 := by omega
    simp only [getLsbD_append_ofBool_succ]
    rw [hk, BitVec.getLsbD_append, BitVec.getLsbD_append, BitVec.getLsbD_zero, BitVec.getLsbD_zero]
    by_cases hlow : k < 3
    · simp [hlow]
    · have hthree : 3 ≤ k := Nat.le_of_not_lt hlow
      have hop : k - 3 < 8 ↔ k ≤ 10 := by omega
      simp [hlow, hthree, hop]

/-- Settles O33: the bits of STATUS by their place, and the refused write by the address map. -/
theorem statusRegisterFields : Obligations.StatusRegisterFields := by
  refine ⟨getLsbD_statusWord, by decide, fun s v rest h => ?_⟩
  have ht : target 0x00C = some .status := target_ofNat .status rfl
  rw [step_write s _ v rest h, memWrite_of_readOnly _ .status v _ ht rfl]
  rfl

/-! ### Reset -/

/-- Settles O9: the byte files are empty, the indices are 24 zeros, and the other rows are the fields of the reset
state. -/
theorem resetValues : Obligations.ResetValues := by
  have hirq : irq State.reset = false := by decide
  have hcap : readTarget State.reset .cap = 0x04000400 := by decide
  have hstatus : readTarget State.reset .status = 0 := by decide
  exact ⟨Memory.get_nil, rfl, rfl, rfl, rfl, fun k => Vector.getElem_replicate k.isLt, rfl, rfl, Memory.get_nil, rfl,
    Memory.get_nil, rfl, rfl, Memory.get_nil, rfl, rfl, rfl, rfl, rfl, rfl, hirq, rfl, rfl, hcap, hstatus⟩

/-! ### The interrupt enable register -/

/-- Settles O31: the write turn stores the existing bits and the read turn after it returns them. -/
theorem interruptEnableRegister : Obligations.InterruptEnableRegister := by
  refine ⟨fun s v h => ?_, rfl, irq_iff⟩
  have ht : target 0x014 = some .ie := target_ofNat .ie rfl
  have hwrite := (step_write s _ v _ h).trans (memWrite_of_ie _ v _ ht)
  have hread := step_read_of_target { s.atTurn [.read 0x014] with ie := ieAfterWrite v } _ .ie [] ht rfl
  have hback := ieWord_of_ieAfterWrite { s.atTurn [] with ie := ieAfterWrite v } v rfl
  refine ⟨_, reaches_two _ _ _ hwrite hread, congrArg some hback, rfl, fun n => ?_⟩
  rw [← getLsbD_eventMask]
  exact getLsbD_ieAfterWrite v n

end Sys2Proof.Machine

/-! PROOFS of the family 20_memory: a read transaction (R58), a write transaction (R59) and the byte lanes of the
windows (R55). First what an address selects, then what the registers read and when they read zero, then the lines of a
write, then the statements. -/

namespace Sys2Proof.Machine

/-! ### What an address selects -/

/-- An address that stands where a register stands selects it (R53). -/
theorem target_of_toNat (a : Addr) (r : Target) (hr : r.inRange = true) (ha : a.toNat = r.offset) :
    target a = some r := by
  rw [← target_ofNat r hr, ← ha, BitVec.ofNat_toNat, BitVec.setWidth_eq]

/-- A line of the map that answers nothing is one that does not match, followed by lines that answer nothing. -/
theorem ite_some_eq_none_iff {c : Prop} [Decidable c] (r : Target) (o : Option Target) :
    (if c then some r else o) = none ↔ ¬ c ∧ o = none := by
  by_cases h : c <;> simp [h]

/-- The addresses that select nothing are the misaligned ones and those of the unmapped rows (R51, R54). -/
theorem target_eq_none_iff (a : Addr) : target a = none ↔ badAddr a := by
  constructor
  · intro h
    have hlt := a.isLt
    unfold target at h
    unfold badAddr
    by_cases haligned : a.toNat % 4 = 0
    · rw [if_pos haligned] at h
      unfold mapped at h
      simp only [ite_some_eq_none_iff] at h
      unfold Config.entBytes Config.dkLen at h
      omega
    · exact .inl haligned
  · intro h
    by_contra hne
    obtain ⟨r, hr⟩ := Option.ne_none_iff_exists'.1 hne
    obtain ⟨hoff, hrange⟩ := target_some a r hr
    unfold badAddr Config.mnMax Config.ppMax at h
    cases r <;> simp only [Target.offset, Target.inRange, decide_eq_true_eq] at hoff hrange <;> omega

/-- An address that is not bad selects a register or a word of a window. -/
theorem exists_target (a : Addr) (h : ¬ badAddr a) : ∃ r, target a = some r :=
  Option.ne_none_iff_exists'.1 fun hnone => h ((target_eq_none_iff a).1 hnone)

/-- The address of a register the host cannot write selects one (R59 line 2). -/
theorem exists_target_of_readOnlyAddr (a : Addr) (h : readOnlyAddr a) :
    ∃ r, target a = some r ∧ r.readOnly = true := by
  obtain ⟨haligned, rfl | rfl | rfl | rfl | rfl | hidx | hseed⟩ := h
  · exact ⟨.id, target_ofNat .id rfl, rfl⟩
  · exact ⟨.cap, target_ofNat .cap rfl, rfl⟩
  · exact ⟨.status, target_ofNat .status rfl, rfl⟩
  · exact ⟨.csumOut, target_ofNat .csumOut rfl, rfl⟩
  · exact ⟨.idxCnt, target_ofNat .idxCnt rfl, rfl⟩
  · have hk : (a.toNat - 0x140) / 4 < 24 := by omega
    have hoff : a.toNat = 0x140 + 4 * ((a.toNat - 0x140) / 4) := by omega
    exact ⟨.idx _, target_of_toNat a (.idx _) (decide_eq_true hk) hoff, rfl⟩
  · have hw : (a.toNat - 0x1C0) / 4 < 16 := by omega
    have hoff : a.toNat = 0x1C0 + 4 * ((a.toNat - 0x1C0) / 4) := by omega
    exact ⟨.seed _, target_of_toNat a (.seed _) (decide_eq_true hw) hoff, rfl⟩

/-- The input registers and windows (R59 lines 8 to 14). -/
def Target.input : Target → Bool
  | .entN | .mnLen | .ppLen | .ppCtrl | .ent _ | .mn _ | .pp _ => true
  | .id | .cap | .cmd | .status | .event | .ie | .csumOut | .idxCnt | .idx _ | .seed _ => false

/-- The registers whose write depends on the phase: CMD and the inputs (R59 lines 5 to 14). -/
def Target.phased (r : Target) : Prop := r = .cmd ∨ r.input = true

/-- What lines 2 to 4 of R59 leave to the phase is CMD and the inputs. -/
theorem phased_iff (r : Target) : r.phased ↔ r.readOnly = false ∧ r ≠ .event ∧ r ≠ .ie := by
  cases r <;> simp [Target.phased, Target.input, Target.readOnly]

/-- The address of CMD or of an input selects a register whose write needs the phase (R59 lines 5 and 6). -/
theorem exists_target_of_inputAddr (a : Addr) (h : inputAddr a) : ∃ r, target a = some r ∧ r.phased := by
  have hgood : ¬ badAddr a := by
    unfold inputAddr at h
    unfold badAddr Config.mnMax Config.ppMax at *
    bv_omega
  obtain ⟨r, hr⟩ := exists_target a hgood
  refine ⟨r, hr, ?_⟩
  obtain ⟨hoff, hrange⟩ := target_some a r hr
  cases r with
  | cmd | entN | mnLen | ppLen | ppCtrl | ent | mn | pp => simp [Target.phased, Target.input]
  | _ =>
    simp only [Target.offset, Target.inRange, decide_eq_true_eq] at hoff hrange
    unfold inputAddr Config.mnMax Config.ppMax at h
    bv_omega

/-! ### What a register reads -/

/-- A word of a byte window is its four bytes, the lowest in the least significant lane (R55). -/
theorem toNat_word (m : Memory) (w : Nat) : (m.word w).toNat = laneValue m w := by
  have lane : ∀ {n : Nat} (x : BitVec n) (b : Byte), (x ++ b).toNat = x.toNat * 2 ^ 8 + b.toNat := fun x b => by
    rw [BitVec.toNat_append, ← Nat.shiftLeft_add_eq_or_of_lt b.isLt, Nat.shiftLeft_eq]
  unfold Memory.word laneValue
  rw [lane, lane, lane]
  ring

/-- The turn a read stands in changes no register. -/
theorem readTarget_atTurn (s : State) (rest : List Turn) (r : Target) :
    readTarget (s.atTurn rest) r = readTarget s r := by
  cases r <;> rfl

/-- Bit 0 of PP_CTRL is PRESENT (R29). -/
theorem toNat_readTarget_ppCtrl (s : State) : (readTarget s .ppCtrl).toNat = s.ppPresent.toNat := by
  unfold readTarget
  cases s.ppPresent <;> rfl

/-- The count fits its register. -/
theorem toNat_readTarget_idxCnt (s : State) : (readTarget s .idxCnt).toNat = s.idxCnt.toNat := by
  unfold readTarget
  exact BitVec.toNat_setWidth_of_le (by decide)

/-- An index a word (R26). -/
theorem toNat_readTarget_idx (s : State) (k : Fin 24) : (readTarget s (.idx k)).toNat = s.idx[k].toNat := by
  show ((s.idx[k.val]?.getD 0).zeroExtend 32).toNat = s.idx[k].toNat
  rw [Vector.getElem?_eq_getElem k.isLt, Option.getD_some]
  exact BitVec.toNat_setWidth_of_le (by decide)

/-! ### When a register reads zero -/

/-- Every word of an empty register file. -/
theorem word_nil (w : Nat) : Memory.word [] w = 0 := by
  unfold Memory.word
  simp only [Memory.get_nil]
  rfl

/-- CSUM_OUT without a checksum (R36 item 1). -/
theorem readTarget_csumOut_of_invalid (s : State) (h : s.Inv) (hv : s.csValid = false) :
    readTarget s .csumOut = 0 := by
  obtain ⟨hcs, hcsw⟩ := h.noChecksum hv
  simp [readTarget, csumOutWord, csVal, hcs, hcsw]

/-- IDX_CNT without indices (R36 item 3). -/
theorem readTarget_idxCnt_of_invalid (s : State) (h : s.Inv) (hv : s.idxValid = false) :
    readTarget s .idxCnt = 0 := by
  obtain ⟨hcnt, -⟩ := h.noIndices hv
  simp [readTarget, hcnt]

/-- `IDX[k]` without indices (R36 item 3). -/
theorem readTarget_idx_of_invalid (s : State) (h : s.Inv) (hv : s.idxValid = false) (k : Nat) :
    readTarget s (.idx k) = 0 := by
  obtain ⟨-, hidx⟩ := h.noIndices hv
  by_cases hk : k < 24 <;> simp [readTarget, hidx, zeroIdx, hk]

/-- A word of SEED without a seed (R36 item 5). -/
theorem readTarget_seed_of_invalid (s : State) (h : s.Inv) (hv : s.seedValid = false) (w : Nat) :
    readTarget s (.seed w) = 0 := by
  simp [readTarget, h.noSeed hv, word_nil]

/-- In FAULT every data register reads zero (R36 item 8, R171). -/
theorem readTarget_of_fault (s : State) (h : s.Inv) (hp : s.phase = .fault) (r : Target) (hr : 0x018 ≤ r.offset) :
    readTarget s r = 0 := by
  obtain ⟨hent, hentN, hcs, hidx, hmn, hmnLen, hpp, hppLen, hpresent, hseed⟩ := h.fault hp
  cases r with
  | id | cap | cmd | status | event | ie => simp [Target.offset] at hr
  | entN => exact hentN
  | csumOut => exact readTarget_csumOut_of_invalid s h hcs
  | idxCnt => exact readTarget_idxCnt_of_invalid s h hidx
  | mnLen => exact hmnLen
  | ppLen => exact hppLen
  | ppCtrl => simp [readTarget, hpresent]
  | ent w => simp [readTarget, hent, word_nil]
  | idx k => exact readTarget_idx_of_invalid s h hidx k
  | seed w => exact readTarget_seed_of_invalid s h hseed w
  | mn w => simp [readTarget, hmn, word_nil]
  | pp w => simp [readTarget, hpp, word_nil]

/-- The decoder reads every command's word back (R78). -/
theorem decodeWord_encode (i : Instr) : decodeWord (encode i) = .ok i := by
  cases i with
  | clear g => revert g; decide
  | _ => decide

/-- What a command in flight implies, for the command of the word in flight (R36 item 7). -/
theorem inFlight_of_cmd (s : State) (h : s.Inv) (hp : s.phase = .run) (i : Instr) (hc : s.cmd = encode i) :
    s.InFlight i := by
  obtain ⟨j, hj, -, hfly⟩ := h.run hp
  have hword : decodeWord (encode i) = decodeWord (encode j) := congrArg decodeWord (hc.symm.trans hj)
  rw [decodeWord_encode, decodeWord_encode] at hword
  cases hword
  exact hfly

/-- A checksum in flight leaves none to be seen (R67 (d)). -/
theorem csValid_of_inFlight (s : State) (h : s.Inv) (hp : s.phase = .run)
    (hc : s.cmd = encode .csum ∨ s.cmd = encode .encode) : s.csValid = false := by
  rcases hc with hc | hc
  · obtain ⟨-, hcs, -⟩ := inFlight_of_cmd s h hp .csum hc
    exact hcs
  · obtain ⟨-, hcs, -⟩ := inFlight_of_cmd s h hp .encode hc
    exact hcs

/-- A command of the entropy side in flight leaves no indices to be seen (R67 (d)). -/
theorem idxValid_of_inFlight (s : State) (h : s.Inv) (hp : s.phase = .run)
    (hc : s.cmd = encode .csum ∨ s.cmd = encode .pack ∨ s.cmd = encode .encode) : s.idxValid = false := by
  rcases hc with hc | hc | hc
  · obtain ⟨-, -, hidx⟩ := inFlight_of_cmd s h hp .csum hc
    exact hidx
  · obtain ⟨-, -, hidx⟩ := inFlight_of_cmd s h hp .pack hc
    exact hidx
  · obtain ⟨-, -, hidx⟩ := inFlight_of_cmd s h hp .encode hc
    exact hidx

/-- A derivation in flight leaves no seed to be seen (R67 (d)). -/
theorem seedValid_of_inFlight (s : State) (h : s.Inv) (hp : s.phase = .run) (hc : s.cmd = encode .derive) :
    s.seedValid = false := by
  obtain ⟨-, -, hseed⟩ := inFlight_of_cmd s h hp .derive hc
  exact hseed

/-! ### A read transaction -/

/-- A step whose turn is the read of a misaligned or unmapped address (R58). -/
theorem step_read_of_none (s : State) (a : Addr) (rest : List Turn) (ht : target a = none)
    (h : s.agenda = .read a :: rest) :
    step s = .next { s.atTurn rest with event := s.event ||| 0x040, reply := some 0 } := by
  refine (step_cons s _ rest h).trans ?_
  show Host.Outcome.next (memRead a (s.atTurn rest)) = _
  unfold memRead
  rw [ht]
  rfl

/-- The registers of the index outputs. -/
theorem target_idx_cases (a : Addr) (r : Target) (ht : target a = some r)
    (ha : a = 0x020 ∨ (0x140 ≤ a.toNat ∧ a.toNat ≤ 0x19F)) : r = .idxCnt ∨ ∃ k, r = .idx k := by
  obtain ⟨hoff, hrange⟩ := target_some a r ht
  cases r with
  | idxCnt => exact .inl rfl
  | idx k => exact .inr ⟨k, rfl⟩
  | _ =>
    simp only [Target.offset, Target.inRange, decide_eq_true_eq] at hoff hrange
    bv_omega

/-- The registers of the SEED window. -/
theorem target_seed_cases (a : Addr) (r : Target) (ht : target a = some r)
    (ha : 0x1C0 ≤ a.toNat ∧ a.toNat ≤ 0x1FF) : ∃ w, r = .seed w := by
  obtain ⟨hoff, hrange⟩ := target_some a r ht
  cases r with
  | seed w => exact ⟨w, rfl⟩
  | _ =>
    simp only [Target.offset, Target.inRange, decide_eq_true_eq] at hoff hrange
    omega

/-- In RUN the output group of the command in flight reads zero (R67 (d)). -/
theorem readTarget_of_inFlight (s : State) (a : Addr) (r : Target) (ht : target a = some r) (h : s.Inv)
    (hp : s.phase = .run) :
    (s.cmd = encode .csum ∨ s.cmd = encode .encode → a = 0x01C → readTarget s r = 0) ∧
    (s.cmd = encode .csum ∨ s.cmd = encode .pack ∨ s.cmd = encode .encode →
      a = 0x020 ∨ (0x140 ≤ a.toNat ∧ a.toNat ≤ 0x19F) → readTarget s r = 0) ∧
    (s.cmd = encode .derive → 0x1C0 ≤ a.toNat ∧ a.toNat ≤ 0x1FF → readTarget s r = 0) := by
  refine ⟨fun hc ha => ?_, fun hc ha => ?_, fun hc ha => ?_⟩
  · have hr : target a = some .csumOut := target_of_toNat a .csumOut rfl (congrArg BitVec.toNat ha)
    cases ht.symm.trans hr
    exact readTarget_csumOut_of_invalid s h (csValid_of_inFlight s h hp hc)
  · have hv := idxValid_of_inFlight s h hp hc
    obtain rfl | ⟨k, rfl⟩ := target_idx_cases a r ht ha
    · exact readTarget_idxCnt_of_invalid s h hv
    · exact readTarget_idx_of_invalid s h hv k
  · obtain ⟨w, rfl⟩ := target_seed_cases a r ht ha
    exact readTarget_seed_of_invalid s h (seedValid_of_inFlight s h hp hc) w

/-- Settles O26: a bad address selects nothing; any other selects one register, and `val` says that the reply is the
value of whichever register stands at the address. -/
theorem readTransaction : Obligations.ReadTransaction := by
  intro s a rest h
  refine ⟨fun hbad => step_read_of_none s a rest ((target_eq_none_iff a).2 hbad) h, fun hgood => ?_⟩
  obtain ⟨r, ht⟩ := exists_target a hgood
  have hstep := step_read_of_target s a r rest ht h
  rw [readTarget_atTurn] at hstep
  have val (q : Target) (hq : q.inRange = true) (ha : a.toNat = q.offset) : readTarget s r = readTarget s q := by
    cases ht.symm.trans (target_of_toNat a q hq ha)
    rfl
  have reg (q : Target) (hq : q.inRange = true) (ha : a = BitVec.ofNat 12 q.offset) :
      readTarget s r = readTarget s q := by
    cases ht.symm.trans ((congrArg target ha).trans (target_ofNat q hq))
    rfl
  have window (q : Target) (m : Memory) (w : Nat) (hq : q.inRange = true) (hm : readTarget s q = m.word w)
      (ha : a.toNat = q.offset) : (readTarget s r).toNat = laneValue m w := by
    rw [val q hq ha, hm, toNat_word]
  refine ⟨readTarget s r, hstep, reg .id rfl, fun ha => ?cap, reg .cmd rfl, reg .status rfl, reg .event rfl,
    reg .ie rfl, reg .entN rfl, reg .csumOut rfl, fun ha => ?idxCnt, reg .mnLen rfl, reg .ppLen rfl,
    fun ha => ?ppCtrl, fun w hw => window (.ent w) _ w (decide_eq_true hw) rfl, fun k ha => ?idx,
    fun w hw => window (.seed w) _ w (decide_eq_true hw) rfl,
    fun w hw => window (.mn w) _ w (decide_eq_true hw) rfl, fun w hw => window (.pp w) _ w (decide_eq_true hw) rfl,
    fun hinv hp ha => ?fault, readTarget_of_inFlight s a r ht⟩
  case cap => rw [reg .cap rfl ha]; rfl
  case idxCnt => rw [reg .idxCnt rfl ha, toNat_readTarget_idxCnt]
  case ppCtrl => rw [reg .ppCtrl rfl ha, toNat_readTarget_ppCtrl]
  case idx => rw [val (.idx k) (decide_eq_true k.isLt) ha, toNat_readTarget_idx]
  case fault =>
    obtain ⟨hoff, -⟩ := target_some a r ht
    exact readTarget_of_fault s hinv hp r (hoff ▸ ha)

/-! ### A write transaction -/

/-- A write of a misaligned or unmapped address raises E_ACCESS alone (R59 line 1). -/
theorem memWrite_of_none (a : Addr) (v : Word) (s : State) (h : target a = none) :
    memWrite a v s = .next (raise .eAccess s) := by
  unfold memWrite
  rw [h]

/-- A write of EVENT clears what it names, in every phase (R59 line 3). -/
theorem memWrite_of_event (a : Addr) (v : Word) (s : State) (h : target a = some .event) :
    memWrite a v s = .next { s with event := eventAfterWrite s.event v } := by
  unfold memWrite
  rw [h]
  rfl

/-- A write of CMD or of an input register depends on the phase (R59 lines 5 to 14). -/
theorem memWrite_of_phased (a : Addr) (r : Target) (v : Word) (s : State) (h : target a = some r) (hr : r.phased) :
    memWrite a v s = writePhased r v s := by
  obtain ⟨hro, hevent, hie⟩ := (phased_iff r).1 hr
  unfold memWrite
  simp only [h]
  rw [if_neg (by simp [hro]), if_neg hevent, if_neg hie]

/-- In FAULT such a write does nothing (R59 line 5). -/
theorem writePhased_fault (r : Target) (v : Word) (s : State) (hp : s.phase = .fault) :
    writePhased r v s = .next s := by
  unfold writePhased
  rw [hp]

/-- In RUN it raises E_BUSY alone (R59 line 6). -/
theorem writePhased_run (r : Target) (v : Word) (s : State) (hp : s.phase = .run) :
    writePhased r v s = .next (raise .eBusy s) := by
  unfold writePhased
  rw [hp]

/-- In IDLE a write of CMD is the command's (R59 line 7). -/
theorem writePhased_idle_cmd (v : Word) (s : State) (hp : s.phase = .idle) :
    writePhased .cmd v s = writeCmd v s := by
  unfold writePhased
  rw [hp]
  rfl

/-- In IDLE a write of an input stores it (R59 lines 8 to 14). -/
theorem writePhased_idle_input (r : Target) (v : Word) (s : State) (hp : s.phase = .idle) (hr : r.input = true) :
    writePhased r v s = .next (writeInput r v s) := by
  have hcmd : r ≠ .cmd := by
    rintro rfl
    cases hr
  unfold writePhased
  simp only [hp]
  exact if_neg hcmd

/-- An illegal word raises E_ILLCMD (R81). -/
theorem writeCmd_of_error (v : Word) (s : State) (e : DecodeError) (h : decodeWord v = .error e) :
    writeCmd v s = .next (raise .eIllcmd s) := by
  unfold writeCmd
  rw [h]

/-- A legal word is the command it decodes to (R81). -/
theorem writeCmd_of_ok (v : Word) (s : State) (i : Instr) (h : decodeWord v = .ok i) : writeCmd v s = exec i s := by
  unfold writeCmd
  rw [h]

/-- A step whose turn is the write of an input in IDLE. -/
theorem step_write_input (s : State) (a : Addr) (r : Target) (v : Word) (rest : List Turn) (ht : target a = some r)
    (hr : r.input = true) (hp : s.phase = .idle) (h : s.agenda = .write a v :: rest) :
    step s = .next (writeInput r v (s.atTurn rest)) := by
  rw [step_write s a v rest h, memWrite_of_phased a r v _ ht (.inr hr),
    writePhased_idle_input r v (s.atTurn rest) hp hr]

/-- A step whose turn is a write of CMD in IDLE. -/
theorem step_write_cmd (s : State) (v : Word) (rest : List Turn) (hp : s.phase = .idle)
    (h : s.agenda = .write 0x008 v :: rest) : step s = writeCmd v (s.atTurn rest) := by
  have ht : target 0x008 = some .cmd := target_ofNat .cmd rfl
  rw [step_write s _ v rest h, memWrite_of_phased _ .cmd v _ ht (.inl rfl),
    writePhased_idle_cmd v (s.atTurn rest) hp]

/-- The bits of IE that a write stores, as a mask of the word (R33). -/
theorem ieAfterWrite_eq (v : Word) : ieAfterWrite v = (v &&& 0x0000017F).truncate 9 := by
  have hmask : eventMask = (0x0000017F : Word).truncate 9 := by decide
  refine BitVec.eq_of_getLsbD_eq fun n hn => ?_
  rw [getLsbD_ieAfterWrite, hmask]
  simp [hn, Bool.and_comm]

/-- Settles O27: each line of R59 by the register its address selects. -/
theorem writeTransaction : Obligations.WriteTransaction := by
  intro s a v rest h
  have hstep := step_write s a v rest h
  refine ⟨fun hbad => ?bad, fun hro => ?readOnly, fun ha => ?event, fun ha => ?ie, fun hin hp => ?fault,
    fun hin hp => ?run, fun hp => ?idle⟩
  case bad => rw [hstep, memWrite_of_none a v _ ((target_eq_none_iff a).2 hbad)]; rfl
  case readOnly =>
    obtain ⟨r, ht, hr⟩ := exists_target_of_readOnlyAddr a hro
    rw [hstep, memWrite_of_readOnly a r v _ ht hr]
    rfl
  case event =>
    have ht : target a = some .event := target_of_toNat a .event rfl (congrArg BitVec.toNat ha)
    rw [hstep, memWrite_of_event a v _ ht]
    rfl
  case ie =>
    have ht : target a = some .ie := target_of_toNat a .ie rfl (congrArg BitVec.toNat ha)
    rw [hstep, memWrite_of_ie a v _ ht, ieAfterWrite_eq]
  case fault =>
    obtain ⟨r, ht, hr⟩ := exists_target_of_inputAddr a hin
    rw [hstep, memWrite_of_phased a r v _ ht hr, writePhased_fault r v (s.atTurn rest) hp]
  case run =>
    obtain ⟨r, ht, hr⟩ := exists_target_of_inputAddr a hin
    rw [hstep, memWrite_of_phased a r v _ ht hr, writePhased_run r v (s.atTurn rest) hp]
    rfl
  case idle =>
    have stored (r : Target) (hr : r.input = true) (hin : r.inRange = true) (ha : a.toNat = r.offset) :
        step s = .next (writeInput r v (s.atTurn rest)) :=
      step_write_input s a r v rest (target_of_toNat a r hin ha) hr hp h
    refine ⟨fun ha e hd => ?illegal, fun ha i hd => ?legal,
      fun ha => stored .entN rfl rfl (congrArg BitVec.toNat ha),
      fun w hw => stored (.ent w) rfl (decide_eq_true hw),
      fun ha => stored .mnLen rfl rfl (congrArg BitVec.toNat ha),
      fun ha => stored .ppLen rfl rfl (congrArg BitVec.toNat ha),
      fun ha => stored .ppCtrl rfl rfl (congrArg BitVec.toNat ha),
      fun w hw => stored (.mn w) rfl (decide_eq_true hw),
      fun w hw => stored (.pp w) rfl (decide_eq_true hw)⟩
    case illegal =>
      subst ha
      rw [step_write_cmd s v rest hp h, writeCmd_of_error v _ e hd]
      rfl
    case legal =>
      subst ha
      rw [step_write_cmd s v rest hp h, writeCmd_of_ok v _ i hd]

/-! ### The byte lanes of the windows -/

/-- A word is its four lanes, the lowest last. -/
theorem lanes_append (v : Word) :
    v.extractLsb' 24 8 ++ v.extractLsb' 16 8 ++ v.extractLsb' 8 8 ++ v.extractLsb' 0 8 = v := by
  have high : v.extractLsb' 24 8 ++ v.extractLsb' 16 8 = v.extractLsb' 16 16 :=
    BitVec.extractLsb'_append_extractLsb'_eq_extractLsb' rfl
  have upper : v.extractLsb' 16 16 ++ v.extractLsb' 8 8 = v.extractLsb' 8 24 :=
    BitVec.extractLsb'_append_extractLsb'_eq_extractLsb' rfl
  have whole : v.extractLsb' 8 24 ++ v.extractLsb' 0 8 = v.extractLsb' 0 32 :=
    BitVec.extractLsb'_append_extractLsb'_eq_extractLsb' rfl
  rw [high, upper, whole]
  exact BitVec.extractLsb'_eq_self

/-- A word written to a register file reads back: each of its bits stands in the lane it was taken from (R55). -/
theorem word_setWord (m : Memory) (w : Nat) (v : Word) (h : m.wf) : (m.setWord w v).word w = v := by
  have lane (k : Nat) (hk : k < 4) : (m.setWord w v).get (4 * w + k) = v.extractLsb' (8 * k) 8 := by
    have hw : (4 * w + k) / 4 = w := by omega
    have hm : (4 * w + k) % 4 = k := by omega
    rw [Memory.get_setWord m w v h, hw, hm, if_pos rfl]
  unfold Memory.word
  rw [lane 3 (by decide), lane 2 (by decide), lane 1 (by decide), ← Nat.add_zero (4 * w), lane 0 (by decide)]
  exact lanes_append v

/-- Storing an input neither looks at the turns still to come nor changes them. -/
theorem atTurn_writeInput (s : State) (r : Target) (v : Word) (rest rest' : List Turn) :
    (writeInput r v (s.atTurn rest)).atTurn rest' = writeInput r v (s.atTurn rest') := by
  cases r <;> rfl

theorem agenda_writeInput (s : State) (r : Target) (v : Word) : (writeInput r v s).agenda = s.agenda := by
  cases r <;> rfl

/-- An input written in IDLE and then read: the two steps store it and return what it then reads. -/
theorem reaches_write_read (s : State) (a : Addr) (r : Target) (v : Word) (ht : target a = some r) (hr : r.input = true)
    (hp : s.phase = .idle) (h : s.agenda = [.write a v, .read a]) :
    State.reaches 2 s { writeInput r v (s.atTurn []) with
      reply := some (readTarget (writeInput r v (s.atTurn [])) r) } := by
  have hwrite := step_write_input s a r v _ ht hr hp h
  have hread := step_read_of_target (writeInput r v (s.atTurn [.read a])) a r [] ht (agenda_writeInput _ r v)
  rw [atTurn_writeInput] at hread
  exact reaches_two _ _ _ hwrite hread

/-- Settles O28: the write stores the word in its lanes, and the read puts the lanes together again. -/
theorem byteLanesOfTheWindows : Obligations.ByteLanesOfTheWindows := by
  intro s v w hp hmem
  refine ⟨fun hw h => ?ent, fun hw h => ?mn, fun hw h => ?pp, fun hw h => ?seed⟩
  case ent =>
    have ht := target_ofNat (.ent w) (decide_eq_true hw)
    exact ⟨_, reaches_write_read s _ (.ent w) v ht rfl hp h,
      congrArg some (word_setWord s.ent w v hmem.ent.1), Memory.get_setWord s.ent w v hmem.ent.1⟩
  case mn =>
    have ht := target_ofNat (.mn w) (decide_eq_true hw)
    exact ⟨_, reaches_write_read s _ (.mn w) v ht rfl hp h,
      congrArg some (word_setWord s.mn w v hmem.mn.1), Memory.get_setWord s.mn w v hmem.mn.1⟩
  case pp =>
    have ht := target_ofNat (.pp w) (decide_eq_true hw)
    exact ⟨_, reaches_write_read s _ (.pp w) v ht rfl hp h,
      congrArg some (word_setWord s.pp w v hmem.pp.1), Memory.get_setWord s.pp w v hmem.pp.1⟩
  case seed =>
    have ht := target_ofNat (.seed w) (decide_eq_true hw)
    exact ⟨_, _, ⟨_, step_read_of_target s _ (.seed w) [] ht h, rfl⟩, rfl, toNat_word s.seed w⟩

end Sys2Proof.Machine

/-! PROOFS of the family 30_encoding: the table of legal words (R78) and the accept of each command (R82). First the
decoder as an equation of fields and of words, then the accept with its pre-checks passed, then the statements. -/

namespace Sys2Proof.Machine

/-! ### The decoder and the fields of a word -/

/-- A word is the word of its own fields (R75). -/
theorem wordOf_rawOf (w : Word) : wordOf (rawOf w) = w := by
  have high : w.extractLsb' 11 21 ++ w.extractLsb' 8 3 = w.extractLsb' 8 24 :=
    BitVec.extractLsb'_append_extractLsb'_eq_extractLsb' rfl
  have whole : w.extractLsb' 8 24 ++ w.extractLsb' 0 8 = w.extractLsb' 0 32 :=
    BitVec.extractLsb'_append_extractLsb'_eq_extractLsb' rfl
  show w.extractLsb' 11 21 ++ w.extractLsb' 8 3 ++ w.extractLsb' 0 8 = w
  rw [high, whole]
  exact BitVec.extractLsb'_eq_self

/-- A word that decodes to a command has the command's fields: the three checks and the opcode leave no other (R79,
R81). -/
theorem rawOf_of_decodeWord (w : Word) (i : Instr) (h : decodeWord w = .ok i) : rawOf w = i.raw := by
  unfold decodeWord at h
  generalize rawOf w = r at h ⊢
  obtain ⟨opc, arg, rsv⟩ := r
  simp only at h
  split_ifs at h with hrsv hopc harg
  obtain rfl : rsv = 0 := not_not.1 hrsv
  have opc_eq (k : Nat) (hk : opc.toNat = k) : opc = BitVec.ofNat 8 k := by
    rw [← hk, BitVec.ofNat_toNat, BitVec.setWidth_eq]
  have arg_eq (hne : opc ≠ 0x05) : arg = 0 := by_contra fun ha => harg ⟨hne, ha⟩
  split at h
  case h_6 hk =>
    cases h
    rw [opc_eq 5 hk]
    rfl
  case h_7 => cases h
  case h_1 hk | h_2 hk | h_3 hk | h_4 hk | h_5 hk =>
    cases h
    obtain rfl := opc_eq _ hk
    rw [arg_eq (by decide)]
    rfl

/-- The decoder answers a command exactly for its word (R78, R81). -/
theorem decodeWord_eq_ok_iff (w : Word) (i : Instr) : decodeWord w = .ok i ↔ encode i = w := by
  constructor
  · intro h
    rw [← wordOf_rawOf w, rawOf_of_decodeWord w i h]
    rfl
  · rintro rfl
    exact decodeWord_encode i

/-! ### The rows of the command table -/

/-- A row whose mask has all 32 bits is selected by its match alone. -/
theorem and_full_mask (w : Word) : w &&& 0xFFFFFFFF = w :=
  BitVec.and_allOnes

/-- The row of `CLEAR`: its mask leaves out `ARG` alone, so it fixes the two other fields. -/
theorem and_clear_mask_iff (w : Word) (g : BitVec 3) :
    w &&& 0xFFFFF8FF = 0x00000005 ∧ w.extractLsb' 8 3 = g ↔ encode (.clear g) = w := by
  constructor
  · rintro ⟨hmask, harg⟩
    have hrsv : w.extractLsb' 11 21 = 0 :=
      calc w.extractLsb' 11 21
        _ = w.extractLsb' 11 21 &&& (0xFFFFF8FF#32).extractLsb' 11 21 := BitVec.and_allOnes.symm
        _ = (w &&& 0xFFFFF8FF).extractLsb' 11 21 := BitVec.extractLsb'_and.symm
        _ = 0 := by rw [hmask]; rfl
    have hopc : w.extractLsb' 0 8 = 0x05 :=
      calc w.extractLsb' 0 8
        _ = w.extractLsb' 0 8 &&& (0xFFFFF8FF#32).extractLsb' 0 8 := BitVec.and_allOnes.symm
        _ = (w &&& 0xFFFFF8FF).extractLsb' 0 8 := BitVec.extractLsb'_and.symm
        _ = 0x05 := by rw [hmask]; rfl
    have hraw : rawOf w = (Instr.clear g).raw := by
      unfold rawOf
      rw [hrsv, harg, hopc]
      rfl
    rw [← wordOf_rawOf w, hraw]
    rfl
  · rintro rfl
    revert g
    decide

/-- The commands, row by row, `CLEAR` with each of its eight masks (R77, R78). -/
def commands : List Instr :=
  [.nop, .csum, .pack, .encode, .derive, .clear 0, .clear 1, .clear 2, .clear 3, .clear 4, .clear 5, .clear 6, .clear 7]

theorem mem_commands (i : Instr) : i ∈ commands := by
  cases i with
  | clear g => revert g; decide
  | _ => decide

/-- Settles O1: a word decodes to a command exactly when it is that command's word, and the words of the commands are
the 13 listed. -/
theorem commandWordSelectsItsRow : Obligations.CommandWordSelectsItsRow := by
  intro w
  have row (i : Instr) : decodeWord w = .ok i ↔ w &&& 0xFFFFFFFF = encode i := by
    rw [decodeWord_eq_ok_iff, and_full_mask, eq_comm]
  have legal : (∃ i, decodeWord w = .ok i) ↔ w ∈ commands.map encode := by
    simp only [decodeWord_eq_ok_iff, List.mem_map, mem_commands, true_and]
  exact ⟨row .nop, row .csum, row .pack, row .encode, row .derive,
    fun g => (decodeWord_eq_ok_iff w _).trans (and_clear_mask_iff w g).symm, legal⟩

/-! ### The accept of a command -/

/-- In IDLE a command whose pre-checks pass is accepted (R81, R82). -/
theorem lifeCycle_accept (i : Instr) (check : State → Option Event) (f : State → State) (commit : State → Commit)
    (s : State) (h : s.phase = .idle) (hc : check s = none) :
    lifeCycle i check f commit s = .next (accept i f s) := by
  rw [lifeCycle_idle i check f commit s h, hc]
  rfl

/-- The lengths the statements list are the supported ones (R163). -/
theorem entropyOk_of_mem (s : State) (h : s.entN ∈ [16#32, 20#32, 24#32, 28#32, 32#32]) : entropyOk s = true := by
  have supported : [16#32, 20#32, 24#32, 28#32, 32#32].map BitVec.toNat = Config.nset := rfl
  exact List.contains_iff_mem.2 (supported ▸ List.mem_map_of_mem h)

/-- The pre-check of `CSUM` and `ENCODE` passes for a supported length. -/
theorem entropyCheck_of_ok (s : State) (h : entropyOk s = true) : entropyCheck s = none :=
  if_pos h

/-- The pre-checks of `PACK` pass for a supported length with its checksum (R163, R164). -/
theorem packCheck_of_ok (s : State) (h : entropyOk s = true) (hv : s.csValid = true) : packCheck s = none := by
  unfold packCheck
  rw [h, hv]
  rfl

/-- The pre-checks of `DERIVE` pass when the password, and the passphrase if there is one, fit their buffers (R165). -/
theorem deriveCheck_of_ok (s : State) (hm : mnLenOk s = true) (hp : ppLenOk s = true) : deriveCheck s = none := by
  unfold deriveCheck
  rw [hm, hp]
  rfl

/-- An absent passphrase fits whatever its length register holds. -/
theorem ppLenOk_of_le (s : State) (h : s.ppPresent = true → s.ppLen.toNat ≤ Config.ppMax) : ppLenOk s = true := by
  unfold ppLenOk
  cases hp : s.ppPresent with
  | false => rfl
  | true => exact decide_eq_true (h hp)

/-- The mask of `CLEAR` stands in the word as `ARG`, above the opcode (R75, R78). -/
theorem encode_clear (g : BitVec 3) : encode (.clear g) = 0x00000005 ||| (g.zeroExtend 32 <<< 8) := by
  revert g
  decide

theorem opcode_encode_clear (g : BitVec 3) : (encode (.clear g)).extractLsb' 0 8 = 0x05 := by
  revert g
  decide

/-- Settles O36: each command's life cycle in IDLE with its pre-checks passed is its accept, and what the accept
invalidates is the group the rule names. -/
theorem acceptStartsTheCommand : Obligations.AcceptStartsTheCommand := by
  intro s hs
  refine ⟨?nop, fun hn => ⟨?csum, ?encode⟩, fun hn hv => ?pack, fun hm hp => ?derive, fun g => ?clear⟩
  case nop => exact lifeCycle_accept .nop noCheck id .results s hs rfl
  case csum =>
    have hc := entropyCheck_of_ok s (entropyOk_of_mem s hn)
    exact lifeCycle_accept .csum entropyCheck invalidateEntropySide csumCommit s hs hc
  case encode =>
    have hc := entropyCheck_of_ok s (entropyOk_of_mem s hn)
    exact lifeCycle_accept .encode entropyCheck invalidateEntropySide encodeCommit s hs hc
  case pack =>
    have hc := packCheck_of_ok s (entropyOk_of_mem s hn) hv
    exact lifeCycle_accept .pack packCheck invalidateIndices packCommit s hs hc
  case derive =>
    have hc := deriveCheck_of_ok s (decide_eq_true hm) (ppLenOk_of_le s hp)
    exact lifeCycle_accept .derive deriveCheck invalidateSeed deriveCommit s hs hc
  case clear =>
    rw [← encode_clear g, ← opcode_encode_clear g]
    exact lifeCycle_accept (.clear g) noCheck id (fun t => .results (clearGroups g t)) s hs rfl

end Sys2Proof.Machine

/-! PROOFS of the family 40_checksum: the extraction of the checksum (R103) and the padding of SHA-256 (R98). The zero
bytes of the padding are counted for words of any width, so that SHA-512 (R129) has the same two laws. -/

namespace Sys2Proof.Machine

/-! ### The checksum extraction -/

/-- The mask of the extraction has the bits of a byte from bit `k` upwards. -/
theorem getLsbD_upperMask (k n : Nat) : (0xFF#8 <<< k).getLsbD n = (decide (n < 8) && decide (k ≤ n)) := by
  have hones : 0xFF#8 = BitVec.allOnes 8 := rfl
  rw [hones, BitVec.getLsbD_shiftLeft, BitVec.getLsbD_allOnes, Bool.eq_iff_iff]
  simp only [Bool.and_eq_true, Bool.not_eq_true', decide_eq_true_eq, decide_eq_false_iff_not]
  omega

/-- Bit by bit, the extraction keeps the bits from `8 - cw` upwards (R103). -/
theorem getLsbD_csx (d : List Byte) (cw n : Nat) :
    (csx d cw).getLsbD n = (decide (8 - cw ≤ n) && (d.headD 0).getLsbD n) := by
  unfold csx
  rw [BitVec.getLsbD_and, getLsbD_upperMask]
  by_cases hn : n < 8
  · rw [decide_eq_true hn, Bool.true_and, Bool.and_comm]
  · rw [BitVec.getLsbD_of_ge (d.headD 0) n (Nat.le_of_not_lt hn), Bool.false_and, Bool.and_false]

/-- The bits the extraction clears are those the alignment to the right shifts out. -/
theorem csx_shiftRight (d : List Byte) (cw : Nat) : csx d cw >>> (8 - cw) = d.headD 0 >>> (8 - cw) := by
  refine BitVec.eq_of_getLsbD_eq fun n _ => ?_
  rw [BitVec.getLsbD_ushiftRight, BitVec.getLsbD_ushiftRight, getLsbD_csx,
    decide_eq_true (Nat.le_add_right (8 - cw) n), Bool.true_and]

/-- A byte's upper `cw` bits, aligned to the right, are a number of `cw` bits. -/
theorem toNat_upperBits_lt (x : Byte) (cw : Nat) (h : cw ≤ 8) : (x >>> (8 - cw)).toNat < 2 ^ cw := by
  have hlt := BitVec.toNat_ushiftRight_lt x (8 - cw) (Nat.sub_le 8 cw)
  rwa [Nat.sub_sub_self h] at hlt

/-- Settles O38: the bits of the extraction, and its value aligned to the right with the bound on that value. -/
theorem extractionKeepsTheTopBits : Obligations.ExtractionKeepsTheTopBits := by
  intro d cw _ hcw
  refine ⟨getLsbD_csx d cw, csx_shiftRight d cw, Nat.le_sub_one_of_lt ?_⟩
  exact toNat_upperBits_lt (csx d cw) cw hcw

/-! ### The padding of a hash -/

/-- The zero bytes in the padding of a message of `len` bytes: what the message, the byte 0x80 and the length field lack
to a whole number of blocks (R98, R129). -/
def paddingZeros (w len : Nat) : Nat := (blockBytes w - (len + 1 + lengthBytes w) % blockBytes w) % blockBytes w

/-- The three parts of the padding (R98, R129). -/
theorem padding_eq_append (w len : Nat) :
    padding w len = [0x80] ++ List.replicate (paddingZeros w len) 0x00 ++ be (lengthBytes w) (8 * len) := rfl

/-- What a number lacks to the next multiple of `b` makes it a multiple of `b`. -/
theorem add_lack_mod (n b : Nat) (hb : 0 < b) : (n + (b - n % b) % b) % b = 0 := by
  have hsum : n % b + (b - n % b) = b := Nat.add_sub_of_le (Nat.mod_lt n hb).le
  rw [Nat.add_mod_mod, ← Nat.mod_add_mod, hsum, Nat.mod_self]

/-- Nothing smaller than what a number lacks to the next multiple of `b` makes it a multiple of `b`. -/
theorem add_mod_ne_zero_of_lt_lack (n b y : Nat) (hy : y < (b - n % b) % b) : (n + y) % b ≠ 0 := by
  have hpos : 0 < n % b := by
    by_contra hzero
    rw [Nat.eq_zero_of_not_pos hzero, Nat.sub_zero, Nat.mod_self] at hy
    exact Nat.not_lt_zero y hy
  have hshort : n % b + y < b := Nat.add_lt_of_lt_sub' (hy.trans_le (Nat.mod_le _ _))
  rw [← Nat.mod_add_mod, Nat.mod_eq_of_lt hshort]
  omega

/-- The padded message is a whole number of blocks (R98, R129). -/
theorem padded_length_mod (w len : Nat) (hw : 0 < blockBytes w) :
    (len + 1 + paddingZeros w len + lengthBytes w) % blockBytes w = 0 := by
  rw [Nat.add_right_comm]
  exact add_lack_mod (len + 1 + lengthBytes w) (blockBytes w) hw

/-- With fewer zero bytes the padded message is not a whole number of blocks (R98, R129). -/
theorem padded_length_mod_ne_zero (w len y : Nat) (hy : y < paddingZeros w len) :
    (len + 1 + y + lengthBytes w) % blockBytes w ≠ 0 := by
  rw [Nat.add_right_comm]
  exact add_mod_ne_zero_of_lt_lack (len + 1 + lengthBytes w) (blockBytes w) y hy

/-- Settles O49: the laws of the padding for words of 32 bits, blocks of 64 bytes and a length field of 8. -/
theorem paddingOfSha256 : Obligations.PaddingOfSha256 := by
  intro len
  exact ⟨paddingZeros 32 len, padding_eq_append 32 len, padded_length_mod 32 len (by decide),
    padded_length_mod_ne_zero 32 len⟩

end Sys2Proof.Machine

/-! PROOFS of the family 42_kdf: the padding of SHA-512 (R129), HMAC (R132) and PBKDF2 (R134). For each function first
its equations, then the statement about it. -/

namespace Sys2Proof.Machine

/-! ### The loop of PBKDF2 -/

/-- The block index of the first message is the four bytes 00 00 00 01 (R134). -/
theorem be_four_one : be 4 1 = [0x00, 0x00, 0x00, 0x01] := by decide

/-- `U_1` is the HMAC of the salt and the block index (R134). -/
theorem iterateU_one (p salt : List Byte) : iterateU p salt 1 = firstU p salt := by
  rw [firstU, be_four_one, iterateU, Nat.sub_self, Function.iterate_zero, id]

/-- Each next `U` is the HMAC of the one before (R134). -/
theorem iterateU_succ (p salt : List Byte) (j : Nat) (hj : 1 ≤ j) :
    iterateU p salt (j + 1) = hmac512 p (iterateU p salt j) := by
  rw [iterateU, iterateU, Nat.sub_add_comm hj, Function.iterate_succ_apply']

/-- The first iteration leaves `U_1` in both strings (R134). -/
theorem kdfAfter_one (p salt : List Byte) : kdfAfter p salt 1 = (firstU p salt, firstU p salt) := by
  unfold kdfAfter
  rw [Nat.sub_self, Function.iterate_zero, id]

/-- The first string of the loop runs through the iterates (R134). -/
theorem kdfAfter_fst (p salt : List Byte) (j : Nat) (hj : 1 ≤ j) : (kdfAfter p salt j).1 = iterateU p salt j := by
  induction j, hj using Nat.le_induction with
  | base => rw [kdfAfter_one, iterateU_one]
  | succ j hj ih => rw [kdfAfter_succ p salt j hj, kdfPass, ih, iterateU_succ p salt j hj]

/-- One more iteration adds the next iterate to the second string of the loop (R134). -/
theorem kdfAfter_succ_snd (p salt : List Byte) (j : Nat) (hj : 1 ≤ j) :
    (kdfAfter p salt (j + 1)).2 = xorBytes (kdfAfter p salt j).2 (iterateU p salt (j + 1)) := by
  rw [kdfAfter_succ p salt j hj, kdfPass, kdfAfter_fst p salt j hj, iterateU_succ p salt j hj]

/-- Bytewise exclusive or of two strings of one length, byte by byte. -/
theorem getD_xorBytes (a b : List Byte) (i : Nat) (h : a.length = b.length) :
    (xorBytes a b).getD i 0 = a.getD i 0 ^^^ b.getD i 0 := by
  by_cases hi : i < a.length
  · simp [xorBytes, hi, h ▸ hi]
  · have hb : b.length ≤ i := h ▸ Nat.le_of_not_lt hi
    simp [xorBytes, Nat.le_of_not_lt hi, hb]

/-- The exclusive or of byte `i` of `U_1` to `U_n`. -/
def xorOfIterates (p salt : List Byte) (i n : Nat) : Byte :=
  (List.range n).foldl (fun acc j => acc ^^^ (iterateU p salt (j + 1)).getD i 0) 0

theorem xorOfIterates_succ (p salt : List Byte) (i n : Nat) :
    xorOfIterates p salt i (n + 1) = xorOfIterates p salt i n ^^^ (iterateU p salt (n + 1)).getD i 0 := by
  rw [xorOfIterates, List.range_succ, List.foldl_append, xorOfIterates, List.foldl_cons, List.foldl_nil]

theorem xorOfIterates_one (p salt : List Byte) (i : Nat) : xorOfIterates p salt i 1 = (firstU p salt).getD i 0 := by
  rw [← iterateU_one]
  exact (xorOfIterates_succ p salt i 0).trans BitVec.zero_xor

/-- After `j` iterations the second string of the loop is the exclusive or of `U_1` to `U_j` (R134). -/
theorem getD_kdfAfter_snd (p salt : List Byte) (i j : Nat) (hj : 1 ≤ j) :
    (kdfAfter p salt j).2.getD i 0 = xorOfIterates p salt i j := by
  induction j, hj using Nat.le_induction with
  | base => rw [kdfAfter_one, xorOfIterates_one]
  | succ j hj ih =>
    have hlen : (kdfAfter p salt j).2.length = (iterateU p salt (j + 1)).length := by
      rw [(length_kdfAfter p salt j).2, iterateU_succ p salt j hj, length_hmac512]
    rw [kdfAfter_succ_snd p salt j hj, getD_xorBytes _ _ i hlen, ih, xorOfIterates_succ]

/-- Settles O46: the seed is the second string of the loop after 2048 iterations. -/
theorem seedIsTheXorOfTheIterates : Obligations.SeedIsTheXorOfTheIterates := by
  intro p salt
  refine ⟨length_pbkdf2 p salt, fun i _ => ?_⟩
  unfold pbkdf2
  exact getD_kdfAfter_snd p salt i Config.iter (by decide)

/-! ### The number of blocks and the length field -/

/-- A number with less than `b` added to make it a multiple of `b` holds `b` as often as the number rounded up. -/
theorem add_div_of_lack (n z b : Nat) (hz : z < b) (h : (n + z) % b = 0) : (n + z) / b = (n + (b - 1)) / b := by
  obtain ⟨q, hq⟩ := Nat.dvd_of_mod_eq_zero h
  have hb : 0 < b := Nat.zero_lt_of_lt hz
  have hrest : n + (b - 1) = b * q + (b - 1 - z) := by omega
  rw [hrest, hq, Nat.mul_add_div hb, Nat.mul_div_cancel_left q hb, Nat.div_eq_of_lt (by omega), Nat.add_zero]

theorem paddingZeros_lt (w len : Nat) (hw : 0 < blockBytes w) : paddingZeros w len < blockBytes w :=
  Nat.mod_lt _ hw

theorem length_padding (w len : Nat) : (padding w len).length = 1 + paddingZeros w len + lengthBytes w := by
  rw [padding_eq_append]
  simp
  omega

/-- The padded message is the message with one byte and the length field, rounded up to whole blocks (R98, R129). -/
theorem padded_blocks (w len : Nat) (hw : 0 < blockBytes w) :
    (len + (padding w len).length) / blockBytes w =
      (len + 1 + lengthBytes w + (blockBytes w - 1)) / blockBytes w := by
  have hsum : len + (padding w len).length = len + 1 + lengthBytes w + paddingZeros w len := by
    rw [length_padding]
    omega
  have hmod : (len + 1 + lengthBytes w + paddingZeros w len) % blockBytes w = 0 :=
    add_lack_mod (len + 1 + lengthBytes w) (blockBytes w) hw
  rw [hsum, add_div_of_lack _ _ _ (paddingZeros_lt w len hw) hmod]

/-- The upper `m` bytes of a big-endian string are those of the number shifted right by the others. -/
theorem be_add (m n v : Nat) : be (m + n) v = be m (v >>> (8 * n)) ++ be n v := by
  induction m with
  | zero => rw [Nat.zero_add, be, List.nil_append]
  | succ m ih =>
    rw [Nat.add_right_comm, be, ih, be, List.cons_append, ← Nat.shiftRight_add, Nat.mul_add, Nat.add_comm (8 * m)]

theorem be_zero (n : Nat) : be n 0 = List.replicate n 0x00 := by
  induction n with
  | zero => rfl
  | succ n ih =>
    rw [be, ih, Nat.zero_shiftRight, List.replicate_succ]
    rfl

/-- A number that fits in `n` bytes has zero bytes above them. -/
theorem be_add_of_lt (m n v : Nat) (hv : v < 2 ^ (8 * n)) : be (m + n) v = List.replicate m 0x00 ++ be n v := by
  rw [be_add, Nat.shiftRight_eq_zero v (8 * n) hv, be_zero]

/-- Settles O50: the laws of the padding for words of 64 bits, blocks of 128 bytes and a length field of 16. -/
theorem paddingOfSha512 : Obligations.PaddingOfSha512 := by
  intro len
  refine ⟨paddingZeros 64 len, padding_eq_append 64 len, padded_length_mod 64 len (by decide),
    padded_length_mod_ne_zero 64 len, padded_blocks 64 len (by decide), fun hlen => ?_⟩
  have hbits : 8 * len < 2 ^ (8 * 8) := by
    unfold Config.ppMax at hlen
    omega
  exact be_add_of_lt 8 8 (8 * len) hbits

/-! ### HMAC -/

/-- The nested hash of R132. -/
theorem hmac512_eq (k m : List Byte) :
    hmac512 k m = sha512 (opad (keyBlock k) ++ sha512 (ipad (keyBlock k) ++ m)) := by
  unfold hmac512
  rfl

/-- A key of more than one block is hashed before it is filled with zero bytes (R132). -/
theorem keyBlock_of_long (k : List Byte) (h : 128 < k.length) :
    keyBlock k = sha512 k ++ List.replicate (128 - (sha512 k).length) 0x00 := by
  rw [keyBlock, if_pos h]

/-- A key of one block or less is filled with zero bytes as it is (R132). -/
theorem keyBlock_of_short (k : List Byte) (h : k.length ≤ 128) :
    keyBlock k = k ++ List.replicate (128 - k.length) 0x00 := by
  rw [keyBlock, if_neg (Nat.not_lt_of_le h)]

/-- Settles O56: the key block in both cases of the key's length, under the nested hash. -/
theorem hmacOfKeyAndMessage : Obligations.HmacOfKeyAndMessage := by
  intro k m
  refine ⟨length_hmac512 k m, fun k0 hlong hshort => ?_⟩
  have hblock : keyBlock k = k0 ++ List.replicate (128 - k0.length) 0x00 := by
    rcases Nat.lt_or_ge 128 k.length with h | h
    · rw [hlong h, keyBlock_of_long k h]
    · rw [hshort h, keyBlock_of_short k h]
  rw [hmac512_eq, hblock, opad, ipad]

end Sys2Proof.Machine

/-! PROOFS of the family 60_exceptions: E_ILLCMD (R162), E_CFG (R163), E_SEQ (R164) and E_LEN (R165). First the illegal
words and the pre-check of each command, then what the write of a command does to EVENT, then the statements. -/

namespace Sys2Proof.Machine

/-! ### The illegal words -/

/-- The word of a command has none of the faults of R79. -/
theorem not_illegalWord_encode (i : Instr) : ¬ illegalWord (encode i) := by
  cases i with
  | clear g => revert g; decide
  | _ => decide

/-- What the decoder refuses has one of the faults of R79: each of its checks is one of them, and an opcode that passes
the second check is one of the six. -/
theorem illegalWord_of_error (w : Word) (e : DecodeError) (h : decodeWord w = .error e) : illegalWord w := by
  unfold decodeWord rawOf at h
  simp only at h
  split_ifs at h with hrsv hopc harg
  · exact .inl hrsv
  · exact .inr (.inl hopc)
  · obtain ⟨hne, ha⟩ := harg
    have hfive : (w.extractLsb' 0 8).toNat ≠ 0x05 := fun h5 => hne (BitVec.eq_of_toNat_eq h5)
    exact .inr (.inr ⟨by omega, ha⟩)
  · split at h
    case h_7 h0 h1 h2 h3 h4 h5 =>
      simp only [imp_false] at h0 h1 h2 h3 h4 h5
      omega
    all_goals cases h

/-- The decoder refuses exactly the illegal words (R79, R81). -/
theorem illegalWord_iff (w : Word) : illegalWord w ↔ ∃ e, decodeWord w = .error e := by
  refine ⟨fun hw => ?_, fun ⟨e, he⟩ => illegalWord_of_error w e he⟩
  cases hd : decodeWord w with
  | error e => exact ⟨e, rfl⟩
  | ok i => exact absurd ((decodeWord_eq_ok_iff w i).1 hd ▸ hw) (not_illegalWord_encode i)

/-- The words that are not illegal are the commands'. -/
theorem exists_decodeWord_of_legal (w : Word) (h : ¬ illegalWord w) : ∃ i, decodeWord w = .ok i := by
  cases hd : decodeWord w with
  | error e => exact absurd (illegalWord_of_error w e hd) h
  | ok i => exact ⟨i, rfl⟩

/-! ### The pre-check of each command -/

/-- The error with which a command's write is refused, if any (R81). -/
def preCheck : Instr → State → Option Event
  | .nop | .clear _ => noCheck
  | .csum | .encode => entropyCheck
  | .pack => packCheck
  | .derive => deriveCheck

/-- What a command's accept invalidates (R82). -/
def invalidation : Instr → State → State
  | .nop | .clear _ => id
  | .csum | .encode => invalidateEntropySide
  | .pack => invalidateIndices
  | .derive => invalidateSeed

/-- In IDLE a command is issued with its pre-check and its invalidation (R81, R82). -/
theorem exec_idle (i : Instr) (s : State) (h : s.phase = .idle) :
    exec i s = .next (issue i (preCheck i s) (invalidation i) s) := by
  cases i with
  | nop => exact lifeCycle_idle .nop noCheck id .results s h
  | csum => exact lifeCycle_idle .csum entropyCheck invalidateEntropySide csumCommit s h
  | pack => exact lifeCycle_idle .pack packCheck invalidateIndices packCommit s h
  | encode => exact lifeCycle_idle .encode entropyCheck invalidateEntropySide encodeCommit s h
  | derive => exact lifeCycle_idle .derive deriveCheck invalidateSeed deriveCommit s h
  | clear g => exact lifeCycle_idle (.clear g) noCheck id (fun t => .results (clearGroups g t)) s h

/-- The supported lengths are those the statements list (R163). -/
theorem entropyOk_iff (s : State) : entropyOk s = true ↔ s.entN ∈ [16#32, 20#32, 24#32, 28#32, 32#32] := by
  refine ⟨fun h => ?_, entropyOk_of_mem s⟩
  have hmem : s.entN.toNat ∈ [16#32, 20#32, 24#32, 28#32, 32#32].map BitVec.toNat := List.contains_iff_mem.1 h
  exact (List.mem_map_of_injective BitVec.toNat_injective).1 hmem

/-- The pre-check of `CSUM` and `ENCODE` refuses every other length (R163). -/
theorem entropyCheck_of_unsupported (s : State) (h : entropyOk s = false) : entropyCheck s = some .eCfg := by
  unfold entropyCheck
  rw [h]
  rfl

/-- So does the first pre-check of `PACK` (R163). -/
theorem packCheck_of_unsupported (s : State) (h : entropyOk s = false) : packCheck s = some .eCfg := by
  unfold packCheck
  rw [h]
  rfl

/-- The second pre-check of `PACK` refuses when there is no checksum (R164). -/
theorem packCheck_of_noChecksum (s : State) (h : entropyOk s = true) (hv : s.csValid = false) :
    packCheck s = some .eSeq := by
  unfold packCheck
  rw [h, hv]
  rfl

/-- A password longer than its buffer is refused (R165). -/
theorem deriveCheck_of_overlong_mn (s : State) (h : mnLenOk s = false) : deriveCheck s = some .eLen := by
  unfold deriveCheck
  rw [h]
  rfl

/-- A passphrase longer than its buffer is refused, with the same error (R165). -/
theorem deriveCheck_of_overlong_pp (s : State) (h : ppLenOk s = false) : deriveCheck s = some .eLen := by
  unfold deriveCheck
  rw [h]
  exact ite_self _

/-- A passphrase is looked at only when it is present (R165). -/
theorem ppLenOk_eq_false (s : State) (hp : s.ppPresent = true) (h : Config.ppMax < s.ppLen.toNat) :
    ppLenOk s = false := by
  unfold ppLenOk
  rw [hp]
  exact decide_eq_false (Nat.not_le_of_lt h)

/-- Everything a pre-check can refuse with: E_CFG for an unsupported length alone, E_SEQ, E_LEN. -/
theorem preCheck_cases (i : Instr) (s : State) (e : Event) (h : preCheck i s = some e) :
    (e = .eCfg ∧ entropyOk s = false) ∨ e = .eSeq ∨ e = .eLen := by
  cases i with
  | nop | clear => cases h
  | csum | encode =>
    cases hok : entropyOk s with
    | true => cases (entropyCheck_of_ok s hok).symm.trans h
    | false => cases (entropyCheck_of_unsupported s hok).symm.trans h; exact .inl ⟨rfl, rfl⟩
  | pack =>
    cases hok : entropyOk s with
    | false => cases (packCheck_of_unsupported s hok).symm.trans h; exact .inl ⟨rfl, rfl⟩
    | true =>
      cases hv : s.csValid with
      | false => cases (packCheck_of_noChecksum s hok hv).symm.trans h; exact .inr (.inl rfl)
      | true => cases (packCheck_of_ok s hok hv).symm.trans h
  | derive =>
    cases hm : mnLenOk s with
    | false => cases (deriveCheck_of_overlong_mn s hm).symm.trans h; exact .inr (.inr rfl)
    | true =>
      cases hp : ppLenOk s with
      | false => cases (deriveCheck_of_overlong_pp s hp).symm.trans h; exact .inr (.inr rfl)
      | true => cases (deriveCheck_of_ok s hm hp).symm.trans h

/-- With a supported length no command's pre-check names E_CFG (R163). -/
theorem preCheck_ne_eCfg (i : Instr) (s : State) (h : entropyOk s = true) : preCheck i s ≠ some .eCfg := by
  intro hc
  rcases preCheck_cases i s _ hc with ⟨-, hno⟩ | he | he
  · exact absurd (h.symm.trans hno) (by decide)
  · cases he
  · cases he

/-- No command's pre-check names E_ILLCMD: it is the decoder's error alone (R162). -/
theorem preCheck_ne_eIllcmd (i : Instr) (s : State) : preCheck i s ≠ some .eIllcmd := by
  intro hc
  rcases preCheck_cases i s _ hc with ⟨he, -⟩ | he | he <;> cases he

/-! ### EVENT at the write of a command -/

/-- A refused command raises its pre-check's error and nothing else (R161). -/
theorem exec_raises (i : Instr) (e : Event) (s : State) (h : s.phase = .idle) (hc : preCheck i s = some e) :
    exec i s = .next (raise e s) := by
  rw [exec_idle i s h, hc]
  rfl

/-- Different causes have different bits (R160). -/
theorem code_injective : Function.Injective Event.code := by
  intro d e
  cases d <;> cases e <;> decide

/-- Recording a cause leaves the bit of every other cause as it was (R161). -/
theorem getLsbD_withEvent_of_ne (d e : Event) (ev : BitVec 9) (h : d ≠ e) :
    (withEvent d ev).getLsbD e.code = ev.getLsbD e.code := by
  have hcode : d.code ≠ e.code := fun hc => h (code_injective hc)
  unfold withEvent
  rw [BitVec.getLsbD_or, ← BitVec.twoPow_eq, BitVec.getLsbD_twoPow]
  simp [hcode]

/-- No accept touches EVENT (R82). -/
theorem invalidation_event (i : Instr) (s : State) : (invalidation i s).event = s.event := by
  cases i <;> rfl

/-- A command whose pre-check does not name a cause leaves that cause's bit as it was, refused or accepted. -/
theorem exec_keeps_event_bit (i : Instr) (e : Event) (s : State) (h : s.phase = .idle) (hc : preCheck i s ≠ some e) :
    ∃ t, exec i s = .next t ∧ t.event.getLsbD e.code = s.event.getLsbD e.code := by
  refine ⟨_, exec_idle i s h, ?_⟩
  rcases issue_cases i (preCheck i s) (invalidation i) s with ⟨d, hd, hissue⟩ | ⟨-, hissue⟩
  · rw [hissue, raise_event]
    exact getLsbD_withEvent_of_ne d e _ fun hde => hc (hde ▸ hd)
  · rw [hissue, accept_event, invalidation_event]

/-! ### The statements -/

/-- Settles O2: the decoder refuses the illegal words before any pre-check, and no pre-check names E_ILLCMD. -/
theorem illegalWordRaisesEIllcmd : Obligations.IllegalWordRaisesEIllcmd := by
  intro s w rest hp h
  have hstep := step_write_cmd s w rest hp h
  refine ⟨fun hw => ?illegal, fun hw => ?legal⟩
  case illegal =>
    obtain ⟨e, hd⟩ := (illegalWord_iff w).1 hw
    rw [hstep, writeCmd_of_error w _ e hd]
    rfl
  case legal =>
    obtain ⟨i, hd⟩ := exists_decodeWord_of_legal w hw
    rw [hstep, writeCmd_of_ok w _ i hd]
    exact exec_keeps_event_bit i .eIllcmd (s.atTurn rest) hp (preCheck_ne_eIllcmd i _)

/-- Settles O21: the three commands' first pre-check compares the whole length register, and the write of that register
does not. -/
theorem unsupportedLengthRaisesECfg : Obligations.UnsupportedLengthRaisesECfg := by
  refine ⟨fun s hp => ⟨fun hn => ?unsupported, fun hn i _ => ?supported⟩, fun s v rest hp h => ?write⟩
  case unsupported =>
    have hno : entropyOk s = false := Bool.eq_false_of_not_eq_true fun hok => hn ((entropyOk_iff s).1 hok)
    have hentropy := entropyCheck_of_unsupported s hno
    exact ⟨exec_raises .csum .eCfg s hp hentropy,
      exec_raises .pack .eCfg s hp (packCheck_of_unsupported s hno),
      exec_raises .encode .eCfg s hp hentropy⟩
  case supported => exact exec_keeps_event_bit i .eCfg s hp (preCheck_ne_eCfg i s (entropyOk_of_mem s hn))
  case write =>
    have ht : target 0x018 = some .entN := target_ofNat .entN rfl
    exact ⟨_, step_write_input s _ .entN v rest ht rfl hp h, rfl, rfl⟩

/-- Settles O22: the second pre-check of `PACK`, reached because the first one passes. -/
theorem packWithoutChecksumRaisesESeq : Obligations.PackWithoutChecksumRaisesESeq := by
  intro s hp hn hv
  exact exec_raises .pack .eSeq s hp (packCheck_of_noChecksum s (entropyOk_of_mem s hn) hv)

/-- Settles O23: either text too long fails a pre-check with the same error; otherwise both pass and `DERIVE` is
accepted. -/
theorem overlongTextRaisesELen : Obligations.OverlongTextRaisesELen := by
  intro s hp
  refine ⟨fun hlong => exec_raises .derive .eLen s hp ?overlong, fun hfit => ?fits⟩
  case overlong =>
    rcases hlong with hm | ⟨hpresent, hpp⟩
    · exact deriveCheck_of_overlong_mn s (decide_eq_false (Nat.not_le_of_lt hm))
    · exact deriveCheck_of_overlong_pp s (ppLenOk_eq_false s hpresent hpp)
  case fits =>
    obtain ⟨hm, hpp⟩ := not_or.1 hfit
    obtain ⟨-, -, -, hderive, -⟩ := acceptStartsTheCommand s hp
    exact hderive (Nat.le_of_not_lt hm) fun hpresent => Nat.le_of_not_lt fun hlt => hpp ⟨hpresent, hlt⟩

end Sys2Proof.Machine

/-! PROOFS of the family other, part 1: the decoder and the encoder on bytes (R55, R78, R79), what each command comes to
in each phase of its life cycle (R80), and everything a step can do (20_memory.md R66). The statements about a single
turn follow at once. -/

namespace Sys2Proof.Machine

/-! ### Encoding -/

/-- The four bytes of a word, lowest lane first, make the word again (R55). -/
theorem wordOfBytes_byteOfWord (w : Word) :
    wordOfBytes (byteOfWord w 0) (byteOfWord w 1) (byteOfWord w 2) (byteOfWord w 3) = w :=
  lanes_append w

/-- The decoder on four bytes and what follows them, when their word is a command's. -/
theorem decode_cons (b0 b1 b2 b3 : Byte) (rest : List Byte) (i : Instr)
    (h : decodeWord (wordOfBytes b0 b1 b2 b3) = .ok i) :
    decode (b0 :: b1 :: b2 :: b3 :: rest) = .ok (i, rest) := by
  simp only [decode, h]

/-- Settles O3: the four bytes make the command's word again, and the word decodes to the command. -/
theorem decodeInvertsEncode : Obligations.DecodeInvertsEncode := by
  intro i rest _
  refine decode_cons _ _ _ _ rest i ?_
  rw [wordOfBytes_byteOfWord, decodeWord_encode]

/-- Settles O4: the decoder answers a command for its own word alone. -/
theorem encodeInvertsDecode : Obligations.EncodeInvertsDecode :=
  fun w i h => (decodeWord_eq_ok_iff w i).1 h

/-- Settles O5: the eleven words, each decoded. -/
theorem sampleWordsDecode : Obligations.SampleWordsDecode := by
  refine ⟨?_, ?_, ?_, ?_, ?_, ?_, ?_, ?_, ?_, ?_, ?_⟩ <;> decide

/-! ### The life cycle of each command -/

/-- What a command's own work comes to at its completion (R84). -/
def work : Instr → State → Commit
  | .nop => .results
  | .csum => csumCommit
  | .pack => packCommit
  | .encode => encodeCommit
  | .derive => deriveCommit
  | .clear g => fun s => .results (clearGroups g s)

/-- The results a command commits, when it commits any. -/
def results : Instr → State → State
  | .nop, s => s
  | .csum, s => checksumResults s
  | .pack, s => indexResults (groups (flatBits s)) s
  | .encode, s => indexResults (groups (flatBits (checksumResults s))) (checksumResults s)
  | .derive, s => seedResults s
  | .clear g, s => clearGroups g s

/-- Every command is the life cycle of its pre-check, its invalidation and its work (R80). -/
theorem exec_eq_lifeCycle (i : Instr) (s : State) :
    exec i s = lifeCycle i (preCheck i) (invalidation i) (work i) s := by
  cases i <;> rfl

/-- In RUN a command is its completion (R84). -/
theorem exec_run (i : Instr) (s : State) (h : s.phase = .run) : exec i s = complete s (work i s) :=
  (exec_eq_lifeCycle i s).trans (lifeCycle_run i _ _ _ s h)

/-- In FAULT a command does nothing (R171). -/
theorem exec_fault (i : Instr) (s : State) (h : s.phase = .fault) : exec i s = .next s :=
  (exec_eq_lifeCycle i s).trans (lifeCycle_fault i _ _ _ s h)

/-- A command whose work commits results answers the common completion of them. -/
theorem exec_run_of_results (i : Instr) (s r : State) (h : s.phase = .run) (hw : work i s = .results r) :
    exec i s = .next (finish r) := by
  rw [exec_run i s h, hw]
  rfl

/-- The work of `PACK`, by its checks in their order. -/
theorem packCommit_cases (s : State) :
    (4 * s.csw.toNat ≠ s.entN.toNat ∧ packCommit s = .assertion) ∨
    (4 * s.csw.toNat = s.entN.toNat ∧ Config.entBytes < s.entN.toNat ∧ packCommit s = .refused) ∨
    (4 * s.csw.toNat = s.entN.toNat ∧ s.entN.toNat ≤ Config.entBytes ∧
      packCommit s = .results (indexResults (groups (flatBits s)) s)) := by
  by_cases hw : 4 * s.csw.toNat = s.entN.toNat
  · rcases Nat.lt_or_ge Config.entBytes s.entN.toNat with hlong | hfit
    · refine .inr (.inl ⟨hw, hlong, ?_⟩)
      unfold packCommit
      rw [if_neg (not_not.2 hw), if_pos hlong]
    · exact .inr (.inr ⟨hw, hfit, packCommit_of_ok s hw hfit⟩)
  · exact .inl ⟨hw, packCommit_of_width s hw⟩

/-- The work of `PACK` commits its groups or nothing. -/
theorem eq_of_packCommit (s r : State) (h : packCommit s = .results r) :
    r = indexResults (groups (flatBits s)) s := by
  rcases packCommit_cases s with ⟨-, hc⟩ | ⟨-, -, hc⟩ | ⟨-, -, hc⟩ <;> cases hc.symm.trans h
  rfl

/-- Outside the supported lengths the work of `CSUM` is refused (log entry 8). -/
theorem csumCommit_of_unsupported (s : State) (h : entropyOk s = false) : csumCommit s = .refused := by
  unfold csumCommit
  rw [h]
  rfl

/-- So is the work of `ENCODE`. -/
theorem encodeCommit_of_unsupported (s : State) (h : entropyOk s = false) : encodeCommit s = .refused := by
  unfold encodeCommit
  rw [csumCommit_of_unsupported s h]

/-- With a text longer than its buffer the work of `DERIVE` is refused (log entry 8). -/
theorem deriveCommit_of_overlong (s : State) (h : mnLenOk s = false ∨ ppLenOk s = false) :
    deriveCommit s = .refused := by
  unfold deriveCommit
  rcases h with h | h <;> simp [h]

/-- The results a command's work commits are its own. -/
theorem eq_results_of_work (i : Instr) (s r : State) (h : work i s = .results r) : r = results i s := by
  cases i with
  | nop | clear => cases h; rfl
  | pack => exact eq_of_packCommit s r h
  | csum =>
    cases hok : entropyOk s with
    | true => cases (csumCommit_of_ok s hok).symm.trans h; rfl
    | false => cases (csumCommit_of_unsupported s hok).symm.trans h
  | encode =>
    cases hok : entropyOk s with
    | true => exact eq_of_packCommit _ r ((encodeCommit_of_ok s hok).symm.trans h)
    | false => cases (encodeCommit_of_unsupported s hok).symm.trans h
  | derive =>
    cases hm : mnLenOk s with
    | false => cases (deriveCommit_of_overlong s (.inl hm)).symm.trans h
    | true =>
      cases hp : ppLenOk s with
      | false => cases (deriveCommit_of_overlong s (.inr hp)).symm.trans h
      | true => cases (deriveCommit_of_ok s hm hp).symm.trans h; rfl

/-! ### What a step can do -/

/-- What a turn that changes no register of the data or of the sequencer does to EVENT: nothing, one cause recorded
that is not the fault entry's, or the host's write (R161, R32). -/
inductive EventUpdate (ev : BitVec 9) : BitVec 9 → Prop
  | kept : EventUpdate ev ev
  | raised (e : Event) (h : e ≠ .fInv) : EventUpdate ev (withEvent e ev)
  | written (v : Word) : EventUpdate ev (eventAfterWrite ev v)

/-- What such a turn does to IE: nothing, or the host's write (R33). -/
inductive IeUpdate (ie : BitVec 9) : BitVec 9 → Prop
  | kept : IeUpdate ie ie
  | written (v : Word) : IeUpdate ie (ieAfterWrite v)

/-- Everything a step can do that answers a next state. -/
inductive StepEffect (s : State) : State → Prop
  /-- The turn was reset (R190). -/
  | reset (rest : List Turn) (ha : s.agenda = .reset :: rest) :
      StepEffect s { State.reset with agenda := rest }
  /-- Nothing but EVENT, IE and the reply changes. -/
  | report (ev ie : BitVec 9) (reply : Option Word) (hev : EventUpdate s.event ev) (hie : IeUpdate s.ie ie) :
      StepEffect s { s.atTurn s.agenda.tail with event := ev, ie := ie, reply := reply }
  /-- An internal step of the command in flight (R87). -/
  | work (rest : List Turn) (ha : s.agenda = .work :: rest) (hp : s.phase = .run) (k : Working) :
      StepEffect s { s.atTurn rest with wrk := k }
  /-- The write of an input register in IDLE (R59 lines 8 to 14). -/
  | store (a : Addr) (v : Word) (rest : List Turn) (r : Target) (ha : s.agenda = .write a v :: rest)
      (hp : s.phase = .idle) (hin : r.inRange = true) (hr : r.input = true) :
      StepEffect s (writeInput r v (s.atTurn rest))
  /-- The accept of a command (R82). -/
  | accept (i : Instr) (rest : List Turn) (ha : s.agenda = .write 0x008 (encode i) :: rest) (hp : s.phase = .idle)
      (hc : preCheck i (s.atTurn rest) = none) :
      StepEffect s (accept i (invalidation i) (s.atTurn rest))
  /-- The completion of the command in flight (R84). -/
  | finish (i : Instr) (hi : s.cmd = encode i) (hp : s.phase = .run)
      (ha : s.agenda = [] ∨ ∃ rest, s.agenda = .complete :: rest)
      (hw : Machine.work i (s.atTurn s.agenda.tail) = .results (results i (s.atTurn s.agenda.tail))) :
      StepEffect s (finish (results i (s.atTurn s.agenda.tail)))
  /-- A failed assertion of the command in flight (R170). -/
  | fault (i : Instr) (hi : s.cmd = encode i) (hp : s.phase = .run)
      (ha : s.agenda = [] ∨ ∃ rest, s.agenda = .complete :: rest)
      (hw : Machine.work i (s.atTurn s.agenda.tail) = .assertion) :
      StepEffect s (faultEntry (s.atTurn s.agenda.tail))

section
variable (s : State)

/-- A turn that does nothing. -/
theorem StepEffect.nothing : StepEffect s (s.atTurn s.agenda.tail) :=
  .report _ _ _ .kept .kept

/-- A turn that records a cause and nothing else. -/
theorem StepEffect.raised (e : Event) (h : e ≠ .fInv) : StepEffect s (raise e (s.atTurn s.agenda.tail)) :=
  .report _ _ _ (.raised e h) .kept

end

/-- The engine's turn completes the command in flight, or does nothing. -/
theorem stepEffect_of_engineTurn (s t : State) (ha : s.agenda = [] ∨ ∃ rest, s.agenda = .complete :: rest)
    (h : engineTurn (s.atTurn s.agenda.tail) = .next t) : StepEffect s t := by
  by_cases hp : s.phase = .run
  · cases hd : decodeWord s.cmd with
    | error e =>
      unfold engineTurn at h
      simp [hp, hd] at h
    | ok i =>
      have hi : s.cmd = encode i := ((decodeWord_eq_ok_iff s.cmd i).1 hd).symm
      rw [engineTurn_run (s.atTurn s.agenda.tail) i hp hd, exec_run i (s.atTurn s.agenda.tail) hp] at h
      cases hw : work i (s.atTurn s.agenda.tail) with
      | results r =>
        obtain rfl := eq_results_of_work i _ r hw
        rw [hw] at h
        cases h
        exact .finish i hi hp ha hw
      | assertion =>
        rw [hw] at h
        cases h
        exact .fault i hi hp ha hw
      | refused =>
        rw [hw] at h
        cases h
  · rw [engineTurn_not_run (s.atTurn s.agenda.tail) hp] at h
    cases h
    exact .nothing s

/-- The write of a command in IDLE raises its pre-check's error or is the accept. -/
theorem stepEffect_of_issue (s t : State) (i : Instr) (rest : List Turn)
    (ha : s.agenda = .write 0x008 (encode i) :: rest) (hp : s.phase = .idle)
    (h : exec i (s.atTurn rest) = .next t) : StepEffect s t := by
  rw [exec_idle i (s.atTurn rest) hp] at h
  cases h
  rcases issue_cases i (preCheck i (s.atTurn rest)) (invalidation i) (s.atTurn rest) with ⟨e, hc, ht⟩ | ⟨hc, ht⟩
  · have hne : e ≠ .fInv := by
      rintro rfl
      rcases preCheck_cases i _ _ hc with ⟨h, -⟩ | h | h <;> cases h
    have hrest : rest = s.agenda.tail := by rw [ha]; rfl
    rw [ht, hrest]
    exact .raised s e hne
  · rw [ht]
    exact .accept i rest ha hp hc

/-- The registers the host can write are CMD, EVENT, IE and the inputs (R59). -/
theorem input_cases_of_writable (r : Target) (h : r.readOnly = false) :
    r = .cmd ∨ r = .event ∨ r = .ie ∨ r.input = true := by
  by_cases hevent : r = .event
  · exact .inr (.inl hevent)
  by_cases hie : r = .ie
  · exact .inr (.inr (.inl hie))
  rcases (phased_iff r).2 ⟨h, hevent, hie⟩ with hcmd | hin
  · exact .inl hcmd
  · exact .inr (.inr (.inr hin))

/-- What the write of a register's address does, when it answers a next state. -/
theorem stepEffect_of_memWrite (s t : State) (a : Addr) (v : Word) (rest : List Turn)
    (ha : s.agenda = .write a v :: rest) (h : memWrite a v (s.atTurn rest) = .next t) : StepEffect s t := by
  have hrest : rest = s.agenda.tail := by rw [ha]; rfl
  rcases memWrite_next a v (s.atTurn rest) t h with rfl | rfl | rfl | ⟨-, rfl⟩ | ⟨-, rfl⟩ | ⟨hp, ht, hcmd⟩ |
    ⟨hp, r, ht, hro, rfl⟩
  · rw [hrest]; exact .raised s .eAccess (by decide)
  · rw [hrest]; exact .report _ _ _ (.written v) .kept
  · rw [hrest]; exact .report _ _ _ .kept (.written v)
  · rw [hrest]; exact .nothing s
  · rw [hrest]; exact .raised s .eBusy (by decide)
  · rcases writeCmd_next v (s.atTurn rest) t hcmd with ⟨e, -, rfl⟩ | ⟨i, hd, hexec⟩
    · rw [hrest]; exact .raised s .eIllcmd (by decide)
    · obtain rfl := (decodeWord_eq_ok_iff v i).1 hd
      have haddr : a = 0x008 := BitVec.eq_of_toNat_eq (target_some a .cmd ht).1
      exact stepEffect_of_issue s t i rest (haddr ▸ ha) hp hexec
  · rcases input_cases_of_writable r hro with rfl | rfl | rfl | hr
    · rw [hrest]; exact .nothing s
    · rw [hrest]; exact .nothing s
    · rw [hrest]; exact .nothing s
    · exact .store a v rest r ha hp (target_some a r ht).2 hr

/-- An internal step touches WRK, or nothing when no command is in flight (R87). -/
theorem workStep_of_not_run (s : State) (h : s.phase ≠ .run) : workStep s = s := by
  unfold workStep
  cases hp : s.phase with
  | run => exact absurd hp h
  | idle | fault => rfl

/-- A read leaves everything but EVENT and the reply as it is (R58). -/
theorem stepEffect_of_memRead (s : State) (a : Addr) : StepEffect s (memRead a (s.atTurn s.agenda.tail)) := by
  cases ht : target a with
  | none =>
    unfold memRead
    rw [ht]
    exact .report _ _ _ (.raised .eAccess (by decide)) .kept
  | some r =>
    rw [memRead_of_target a r _ ht]
    exact .report _ _ _ .kept .kept

/-- Every step that answers a next state has one of the effects. -/
theorem stepEffect_of_step (s t : State) (h : step s = .next t) : StepEffect s t := by
  cases ha : s.agenda with
  | nil =>
    rw [step_nil s ha] at h
    exact stepEffect_of_engineTurn s t (.inl ha) (by rw [ha]; exact h)
  | cons u rest =>
    have hrest : rest = s.agenda.tail := by rw [ha]; rfl
    rw [step_cons s u rest ha] at h
    cases u with
    | read a => cases h; rw [hrest]; exact stepEffect_of_memRead s a
    | write a v => exact stepEffect_of_memWrite s t a v rest ha h
    | complete => exact stepEffect_of_engineTurn s t (.inr ⟨rest, ha⟩) (hrest ▸ h)
    | work =>
      cases h
      by_cases hp : s.phase = .run
      · rw [workStep_eq]; exact .work rest ha hp _
      · rw [workStep_of_not_run (s.atTurn rest) hp, hrest]; exact .nothing s
    | reset => cases h; exact .reset rest ha

/-! ### A single turn -/

/-- Settles O6: line 7 of R59, and the decoder's answer. -/
theorem stepRunsTheWrittenCommand : Obligations.StepRunsTheWrittenCommand := by
  intro s w i rest hp ha hd
  rw [step_write_cmd s w rest hp ha, writeCmd_of_ok w _ i hd]

/-- Settles O7: the engine's turn is the command in flight, whether it stands on the agenda or the agenda is empty. -/
theorem stepRunsTheCommandInFlight : Obligations.StepRunsTheCommandInFlight := by
  intro s i hp hd
  refine ⟨fun rest ha => ?turn, fun ha => ?empty⟩
  case turn => exact (step_cons s _ rest ha).trans (engineTurn_run (s.atTurn rest) i hp hd)
  case empty => exact (step_nil s ha).trans (engineTurn_run (s.atTurn []) i hp hd)

/-- A 32-bit word of a table row is the word itself. -/
theorem tableWord_toNat (w : Word) : tableWord 32 w.toNat = w := by
  unfold tableWord
  rw [Nat.mod_eq_of_lt w.isLt, BitVec.ofNat_toNat, BitVec.setWidth_eq]

/-- Settles O8: the placed write of CMD finds the sequencer idle, so it is the command of the placed word. -/
theorem placedWordIsTheNextInstruction : Obligations.PlacedWordIsTheNextInstruction := by
  intro s i _
  have hplaced := stepRunsTheWrittenCommand (placeCommand s (encode i)) (encode i) i s.agenda rfl rfl
    (decodeWord_encode i)
  rw [State.withFetchWord, tableWord_toNat, hplaced]
  rfl

/-- Settles O10: the turn is the reset itself, in any phase. -/
theorem resetFromEveryState : Obligations.ResetFromEveryState :=
  fun s rest ha => step_cons s .reset rest ha

end Sys2Proof.Machine

/-! PROOFS of the family other, part 2: the invariants of R36. The data registers and the sequencer have an invariant
each; every operation on the data keeps the first, every effect of a step keeps both. -/

namespace Sys2Proof.Machine

/-! ### The invariant of the data registers -/

/-- The clauses of the invariant that speak of the data registers (R36 items 1 to 5). -/
structure State.DataInv (s : State) : Prop where
  memory : s.MemoryInv
  noChecksum : s.csValid = false → s.cs = 0 ∧ s.csw = 0
  checksum : s.csValid = true →
    entropyOk s = true ∧ s.csw.toNat = checksumBits s ∧ s.cs = csx (sha256 (entropy s)) (checksumBits s)
  noIndices : s.idxValid = false → s.idxCnt = 0 ∧ s.idx = zeroIdx
  indices : s.idxValid = true →
    s.csValid = true ∧ s.idxCnt.toNat = 3 * s.entN.toNat / 4 ∧ s.idx = indexRegs (groups (flatBits s))
  noSeed : s.seedValid = false → s.seed = []

/-- The clauses that speak of the sequencer, EVENT and IE (R36 items 7 and 8, R32 to R35, R170). -/
structure State.SequencerInv (s : State) : Prop where
  run : s.phase = .run → ∃ i, s.cmd = encode i ∧ s.lastop = (encode i).extractLsb' 0 8 ∧ s.InFlight i
  fault : s.phase = .fault →
    s.ent = [] ∧ s.entN = 0 ∧ s.csValid = false ∧ s.idxValid = false ∧ s.mn = [] ∧ s.mnLen = 0 ∧ s.pp = [] ∧
      s.ppLen = 0 ∧ s.ppPresent = false ∧ s.seedValid = false
  notRun : s.phase ≠ .run → s.cmd = 0 ∧ s.wrk = Working.zero
  reserved : s.event &&& ~~~eventMask = 0 ∧ s.ie &&& ~~~eventMask = 0
  fInv : s.event.getLsbD 8 = true ↔ s.phase = .fault

/-- The invariant is its two halves. -/
theorem inv_iff (s : State) : s.Inv ↔ s.DataInv ∧ s.SequencerInv := by
  constructor
  · intro h
    exact ⟨⟨h.memory, h.noChecksum, h.checksum, h.noIndices, h.indices, h.noSeed⟩,
      ⟨h.run, h.fault, h.notRun, h.reserved, h.fInv⟩⟩
  · rintro ⟨hd, hs⟩
    exact ⟨hd.memory, hd.noChecksum, hd.checksum, hd.noIndices, hd.indices, hd.noSeed, hs.run, hs.fault, hs.notRun,
      hs.reserved, hs.fInv⟩

/-- The data registers of one state with the sequencer, EVENT, IE, agenda and reply of another. -/
def State.withControl (s c : State) : State :=
  { s with lastop := c.lastop, event := c.event, ie := c.ie, phase := c.phase, cmd := c.cmd, wrk := c.wrk,
           agenda := c.agenda, reply := c.reply }

/-- Two states that agree in the data registers. -/
def State.SameData (s t : State) : Prop := t = s.withControl t

/-- The form of the register files is a fact about the data registers. -/
theorem State.MemoryInv.of_sameData {s t : State} (h : s.MemoryInv) (ht : s.SameData t) : t.MemoryInv := by
  rw [ht]
  exact ⟨h.ent, h.mn, h.pp, h.seed⟩

/-- So is the invariant of the data registers. -/
theorem State.DataInv.of_sameData {s t : State} (h : s.DataInv) (ht : s.SameData t) : t.DataInv := by
  have hmem := h.memory.of_sameData ht
  rw [ht] at hmem ⊢
  exact ⟨hmem, h.noChecksum, h.checksum, h.noIndices, h.indices, h.noSeed⟩

/-- So is what a command in flight implies. -/
theorem State.InFlight.of_sameData {s t : State} {i : Instr} (h : s.InFlight i) (ht : s.SameData t) :
    t.InFlight i := by
  rw [ht]
  cases i <;> exact h

/-! ### The form of the register files -/

/-- An empty register file has its form, whatever its size. -/
theorem memoryForm_nil (n : Nat) : Memory.wf [] ∧ Memory.below n [] :=
  ⟨⟨List.Pairwise.nil, fun _ h => nomatch h⟩, fun _ h => nomatch h⟩

/-- A word written within a file keeps its form. -/
theorem memoryForm_setWord (n : Nat) (m : Memory) (w : Nat) (v : Word) (h : m.wf ∧ m.below n) (hw : 4 * w + 3 < n) :
    (m.setWord w v).wf ∧ (m.setWord w v).below n :=
  ⟨Memory.wf_setWord m w v h.1, Memory.below_setWord n m w v h.2 hw⟩

theorem memoryInv_reset : State.reset.MemoryInv :=
  ⟨memoryForm_nil _, memoryForm_nil _, memoryForm_nil _, memoryForm_nil _⟩

theorem memoryInv_invalidateEntropySide (s : State) (h : s.MemoryInv) : (invalidateEntropySide s).MemoryInv :=
  ⟨h.ent, h.mn, h.pp, h.seed⟩

theorem memoryInv_invalidateSeed (s : State) (h : s.MemoryInv) : (invalidateSeed s).MemoryInv :=
  ⟨h.ent, h.mn, h.pp, memoryForm_nil _⟩

/-- No accept writes a register file but SEED, which it may empty (R82). -/
theorem memoryInv_invalidation (i : Instr) (s : State) (h : s.MemoryInv) : (invalidation i s).MemoryInv := by
  cases i with
  | nop | clear => exact h
  | csum | encode => exact memoryInv_invalidateEntropySide s h
  | pack => exact ⟨h.ent, h.mn, h.pp, h.seed⟩
  | derive => exact memoryInv_invalidateSeed s h

theorem memoryInv_zeroiseEntropy (s : State) (h : s.MemoryInv) : (zeroiseEntropy s).MemoryInv :=
  ⟨memoryForm_nil _, h.mn, h.pp, h.seed⟩

theorem memoryInv_zeroiseKdfin (s : State) (h : s.MemoryInv) : (zeroiseKdfin s).MemoryInv :=
  ⟨h.ent, memoryForm_nil _, memoryForm_nil _, h.seed⟩

/-- The fault entry empties every register file (R170). -/
theorem memoryInv_faultEntry (s : State) : (faultEntry s).MemoryInv :=
  ⟨memoryForm_nil _, memoryForm_nil _, memoryForm_nil _, memoryForm_nil _⟩

/-- A property that each zeroisation keeps, `CLEAR` keeps with any mask (R152). -/
theorem clearGroups_induction {P : State → Prop} (g : BitVec 3) (s : State) (h : P s)
    (hent : ∀ t, P t → P (zeroiseEntropy t)) (hkdf : ∀ t, P t → P (zeroiseKdfin t))
    (hseed : ∀ t, P t → P (invalidateSeed t)) : P (clearGroups g s) := by
  have keep (b : Bool) (f : State → State) (hf : ∀ t, P t → P (f t)) (t : State) (ht : P t) :
      P (if b then f t else t) := by
    cases b with
    | false => exact ht
    | true => exact hf t ht
  exact keep _ _ hseed _ (keep _ _ hkdf _ (keep _ _ hent s h))

/-- What `CLEAR` leaves in each register, by the bits of its mask (R152). -/
theorem clearGroups_eq (g : BitVec 3) (s : State) :
    clearGroups g s = { s with
      ent := if g.getLsbD 0 then [] else s.ent
      entN := if g.getLsbD 0 then 0 else s.entN
      cs := if g.getLsbD 0 then 0 else s.cs
      csw := if g.getLsbD 0 then 0 else s.csw
      csValid := if g.getLsbD 0 then false else s.csValid
      idx := if g.getLsbD 0 then zeroIdx else s.idx
      idxCnt := if g.getLsbD 0 then 0 else s.idxCnt
      idxValid := if g.getLsbD 0 then false else s.idxValid
      mn := if g.getLsbD 1 then [] else s.mn
      mnLen := if g.getLsbD 1 then 0 else s.mnLen
      pp := if g.getLsbD 1 then [] else s.pp
      ppLen := if g.getLsbD 1 then 0 else s.ppLen
      ppPresent := if g.getLsbD 1 then false else s.ppPresent
      seed := if g.getLsbD 2 then [] else s.seed
      seedValid := if g.getLsbD 2 then false else s.seedValid } := by
  unfold clearGroups namesEntropy namesKdfin namesSeed
  cases g.getLsbD 0 <;> cases g.getLsbD 1 <;> cases g.getLsbD 2 <;> rfl

/-- Every commit keeps the form of the register files. -/
theorem memoryInv_results (i : Instr) (s : State) (h : s.MemoryInv) : (results i s).MemoryInv := by
  cases i with
  | nop => exact h
  | csum | pack | encode => exact ⟨h.ent, h.mn, h.pp, h.seed⟩
  | derive =>
    exact ⟨h.ent, h.mn, h.pp, Memory.wf_setBytes _ _ _ h.seed.1, Memory.below_setBytes _ _ _ _ h.seed.2 le_rfl⟩
  | clear g =>
    exact clearGroups_induction g s h memoryInv_zeroiseEntropy memoryInv_zeroiseKdfin memoryInv_invalidateSeed

/-- A word written to an existing word of a window stays within the window (R53). -/
theorem memoryInv_writeInput (r : Target) (v : Word) (s : State) (h : s.MemoryInv) (hr : r.inRange = true) :
    (writeInput r v s).MemoryInv := by
  cases r with
  | id | cap | cmd | status | event | ie | csumOut | idxCnt | idx | seed => exact h
  | entN => exact ⟨h.ent, h.mn, h.pp, h.seed⟩
  | mnLen | ppLen | ppCtrl => exact ⟨h.ent, h.mn, h.pp, memoryForm_nil _⟩
  | ent w =>
    have hw : w < 8 := of_decide_eq_true hr
    exact ⟨memoryForm_setWord _ _ w v h.ent (by unfold Config.entBytes; omega), h.mn, h.pp, h.seed⟩
  | mn w =>
    have hw : w < 256 := of_decide_eq_true hr
    exact ⟨h.ent, memoryForm_setWord _ _ w v h.mn (by unfold Config.mnMax; omega), h.pp, memoryForm_nil _⟩
  | pp w =>
    have hw : w < 256 := of_decide_eq_true hr
    exact ⟨h.ent, h.mn, memoryForm_setWord _ _ w v h.pp (by unfold Config.ppMax; omega), memoryForm_nil _⟩

/-- Settles O14: each effect of a step leaves the files as they are, empties them, or writes within them. -/
theorem everyStepKeepsTheMemoryForm : Obligations.EveryStepKeepsTheMemoryForm := by
  intro s t h hstep
  have hturn (rest : List Turn) : (s.atTurn rest).MemoryInv := h.of_sameData rfl
  cases stepEffect_of_step s t hstep with
  | reset rest => exact memoryInv_reset.of_sameData rfl
  | report => exact h.of_sameData rfl
  | work => exact h.of_sameData rfl
  | store a v rest r _ _ hin _ => exact memoryInv_writeInput r v _ (hturn rest) hin
  | accept i rest => exact (memoryInv_invalidation i _ (hturn rest)).of_sameData rfl
  | finish i => exact (memoryInv_results i _ (hturn _)).of_sameData rfl
  | fault => exact memoryInv_faultEntry _

/-! ### What each operation on the data does to its invariant -/

/-- The reset state satisfies the invariant of the data registers. -/
theorem dataInv_reset : State.reset.DataInv where
  memory := memoryInv_reset
  noChecksum _ := ⟨rfl, rfl⟩
  checksum h := nomatch h
  noIndices _ := ⟨rfl, rfl⟩
  indices h := nomatch h
  noSeed _ := rfl

/-- Invalid indices leave nothing to be said about them. -/
theorem dataInv_invalidateIndices (s : State) (h : s.DataInv) : (invalidateIndices s).DataInv where
  memory := ⟨h.memory.ent, h.memory.mn, h.memory.pp, h.memory.seed⟩
  noChecksum := h.noChecksum
  checksum := h.checksum
  noIndices _ := ⟨rfl, rfl⟩
  indices h := nomatch h
  noSeed := h.noSeed

/-- After the entropy-side outputs are invalidated, ENT and ENT_N may be anything of their form. -/
theorem dataInv_withEntropy (s : State) (h : s.DataInv) (m : Memory) (n : Word)
    (hm : m.wf ∧ m.below Config.entBytes) :
    State.DataInv { invalidateEntropySide s with ent := m, entN := n } where
  memory := ⟨hm, h.memory.mn, h.memory.pp, h.memory.seed⟩
  noChecksum _ := ⟨rfl, rfl⟩
  checksum h := nomatch h
  noIndices _ := ⟨rfl, rfl⟩
  indices h := nomatch h
  noSeed := h.noSeed

theorem dataInv_invalidateEntropySide (s : State) (h : s.DataInv) : (invalidateEntropySide s).DataInv :=
  dataInv_withEntropy s h s.ent s.entN h.memory.ent

theorem dataInv_zeroiseEntropy (s : State) (h : s.DataInv) : (zeroiseEntropy s).DataInv :=
  dataInv_withEntropy s h [] 0 (memoryForm_nil _)

/-- The KDF inputs may be anything of their form: the invariant ties SEED to its flag alone. -/
theorem dataInv_withKdfInputs (s : State) (h : s.DataInv) (m p : Memory) (ml pl : Word) (b : Bool)
    (hm : m.wf ∧ m.below Config.mnMax) (hp : p.wf ∧ p.below Config.ppMax) :
    State.DataInv { s with mn := m, mnLen := ml, pp := p, ppLen := pl, ppPresent := b } where
  memory := ⟨h.memory.ent, hm, hp, h.memory.seed⟩
  noChecksum := h.noChecksum
  checksum := h.checksum
  noIndices := h.noIndices
  indices := h.indices
  noSeed := h.noSeed

theorem dataInv_zeroiseKdfin (s : State) (h : s.DataInv) : (zeroiseKdfin s).DataInv :=
  dataInv_withKdfInputs s h [] [] 0 0 false (memoryForm_nil _) (memoryForm_nil _)

theorem dataInv_invalidateSeed (s : State) (h : s.DataInv) : (invalidateSeed s).DataInv where
  memory := memoryInv_invalidateSeed s h.memory
  noChecksum := h.noChecksum
  checksum := h.checksum
  noIndices := h.noIndices
  indices := h.indices
  noSeed _ := rfl

/-- Every accept keeps the invariant of the data registers (R82). -/
theorem dataInv_invalidation (i : Instr) (s : State) (h : s.DataInv) : (invalidation i s).DataInv := by
  cases i with
  | nop | clear => exact h
  | csum | encode => exact dataInv_invalidateEntropySide s h
  | pack => exact dataInv_invalidateIndices s h
  | derive => exact dataInv_invalidateSeed s h

/-- Every write of an input register keeps it: the outputs computed from the input are invalidated (R37, R59). -/
theorem dataInv_writeInput (r : Target) (v : Word) (s : State) (h : s.DataInv) (hr : r.inRange = true) :
    (writeInput r v s).DataInv := by
  have hmem := memoryInv_writeInput r v s h.memory hr
  have hseed := dataInv_invalidateSeed s h
  cases r with
  | id | cap | cmd | status | event | ie | csumOut | idxCnt | idx | seed => exact h
  | entN => exact dataInv_withEntropy s h s.ent v h.memory.ent
  | ent w => exact dataInv_withEntropy s h (s.ent.setWord w v) s.entN hmem.ent
  | mnLen => exact dataInv_withKdfInputs _ hseed s.mn s.pp v s.ppLen s.ppPresent hmem.mn hmem.pp
  | ppLen => exact dataInv_withKdfInputs _ hseed s.mn s.pp s.mnLen v s.ppPresent hmem.mn hmem.pp
  | ppCtrl => exact dataInv_withKdfInputs _ hseed s.mn s.pp s.mnLen s.ppLen (v.getLsbD 0) hmem.mn hmem.pp
  | mn w => exact dataInv_withKdfInputs _ hseed (s.mn.setWord w v) s.pp s.mnLen s.ppLen s.ppPresent hmem.mn hmem.pp
  | pp w => exact dataInv_withKdfInputs _ hseed s.mn (s.pp.setWord w v) s.mnLen s.ppLen s.ppPresent hmem.mn hmem.pp

/-! ### The commit of each command -/

/-- The width of a checksum fits its register for every supported length (R8). -/
theorem toNat_csw_checksumResults (s : State) (h : entropyOk s = true) :
    (checksumResults s).csw.toNat = checksumBits s := by
  obtain ⟨hle, hbits⟩ := entropyOk_sizes s h
  unfold Config.entBytes at hle
  rw [checksumResults_csw, BitVec.toNat_ofNat]
  exact Nat.mod_eq_of_lt (by omega)

/-- The checksum of the entropy has the width of its length, so it can be packed (R104, R115). -/
theorem checksumResults_width (s : State) (h : entropyOk s = true) :
    4 * (checksumResults s).csw.toNat = (checksumResults s).entN.toNat := by
  rw [toNat_csw_checksumResults s h]
  exact (entropyOk_sizes s h).2

/-- The number of indices of a state whose checksum has its width (R8, R113). -/
theorem length_groups_flatBits (s : State) (hw : 4 * s.csw.toNat = s.entN.toNat) :
    (groups (flatBits s)).length = 3 * s.entN.toNat / 4 := by
  rw [length_groups, length_flatBits]
  unfold Config.groupBits
  omega

/-- The number of indices fits its register. -/
theorem toNat_idxCnt_indexResults (s : State) (hw : 4 * s.csw.toNat = s.entN.toNat)
    (hfit : s.entN.toNat ≤ Config.entBytes) :
    (indexResults (groups (flatBits s)) s).idxCnt.toNat = 3 * s.entN.toNat / 4 := by
  unfold Config.entBytes at hfit
  rw [indexResults_idxCnt, BitVec.toNat_ofNat, length_groups_flatBits s hw]
  exact Nat.mod_eq_of_lt (by omega)

/-- A checksum committed over a supported length satisfies the invariant, with no indices valid (R104). -/
theorem dataInv_checksumResults (s : State) (h : s.DataInv) (hok : entropyOk s = true) (hv : s.idxValid = false) :
    (checksumResults s).DataInv where
  memory := ⟨h.memory.ent, h.memory.mn, h.memory.pp, h.memory.seed⟩
  noChecksum h := nomatch h
  checksum _ := ⟨hok, toNat_csw_checksumResults s hok, rfl⟩
  noIndices := h.noIndices
  indices hvalid := nomatch hv.symm.trans hvalid
  noSeed := h.noSeed

/-- Indices committed from a valid checksum satisfy the invariant (R114). -/
theorem dataInv_indexResults (s : State) (h : s.DataInv) (hv : s.csValid = true) :
    (indexResults (groups (flatBits s)) s).DataInv where
  memory := ⟨h.memory.ent, h.memory.mn, h.memory.pp, h.memory.seed⟩
  noChecksum := h.noChecksum
  checksum := h.checksum
  noIndices h := nomatch h
  indices _ := by
    obtain ⟨hok, hcsw, -⟩ := h.checksum hv
    obtain ⟨hfit, hbits⟩ := entropyOk_sizes s hok
    exact ⟨hv, toNat_idxCnt_indexResults s (hcsw ▸ hbits) hfit, rfl⟩
  noSeed := h.noSeed

theorem dataInv_seedResults (s : State) (h : s.DataInv) : (seedResults s).DataInv where
  memory := memoryInv_results .derive s h.memory
  noChecksum := h.noChecksum
  checksum := h.checksum
  noIndices := h.noIndices
  indices := h.indices
  noSeed h := nomatch h

/-- Every command in flight commits results that satisfy the invariant (R84). -/
theorem dataInv_results (i : Instr) (s : State) (h : s.DataInv) (hf : s.InFlight i) : (results i s).DataInv := by
  cases i with
  | nop => exact h
  | csum =>
    obtain ⟨hok, -, hidx⟩ := hf
    exact dataInv_checksumResults s h hok hidx
  | pack =>
    obtain ⟨-, hcs, -⟩ := hf
    exact dataInv_indexResults s h hcs
  | encode =>
    obtain ⟨hok, -, hidx⟩ := hf
    exact dataInv_indexResults _ (dataInv_checksumResults s h hok hidx) rfl
  | derive => exact dataInv_seedResults s h
  | clear g => exact clearGroups_induction g s h dataInv_zeroiseEntropy dataInv_zeroiseKdfin dataInv_invalidateSeed

/-- The work of `ENCODE` over a supported length commits its results (R116). -/
theorem work_encode (s : State) (h : entropyOk s = true) : work .encode s = .results (results .encode s) :=
  (encodeCommit_of_ok s h).trans
    (packCommit_of_ok _ (checksumResults_width s h) (entropyOk_sizes s h).1)

/-- The work of every command in flight commits its results: its operands are in range, and no assertion fails
(R115). -/
theorem work_of_inFlight (i : Instr) (s : State) (h : s.DataInv) (hf : s.InFlight i) :
    work i s = .results (results i s) := by
  cases i with
  | nop | clear => rfl
  | csum =>
    obtain ⟨hok, -, -⟩ := hf
    exact csumCommit_of_ok s hok
  | pack =>
    obtain ⟨-, hcs, -⟩ := hf
    obtain ⟨hok, hcsw, -⟩ := h.checksum hcs
    obtain ⟨hfit, hbits⟩ := entropyOk_sizes s hok
    exact packCommit_of_ok s (hcsw ▸ hbits) hfit
  | encode =>
    obtain ⟨hok, -, -⟩ := hf
    exact work_encode s hok
  | derive =>
    obtain ⟨hm, hp, -⟩ := hf
    exact deriveCommit_of_ok s hm hp

/-- The pre-check of an accepted command establishes what its flight implies, on the registers its accept leaves
(R81, R82). -/
theorem inFlight_of_preCheck (i : Instr) (s : State) (h : preCheck i s = none) : (invalidation i s).InFlight i := by
  cases i with
  | nop | clear => trivial
  | csum | encode =>
    cases hok : entropyOk s with
    | true => exact ⟨hok, rfl, rfl⟩
    | false => cases (entropyCheck_of_unsupported s hok).symm.trans h
  | pack =>
    cases hok : entropyOk s with
    | false => cases (packCheck_of_unsupported s hok).symm.trans h
    | true =>
      cases hv : s.csValid with
      | true => exact ⟨hok, hv, rfl⟩
      | false => cases (packCheck_of_noChecksum s hok hv).symm.trans h
  | derive =>
    cases hm : mnLenOk s with
    | false => cases (deriveCheck_of_overlong_mn s hm).symm.trans h
    | true =>
      cases hp : ppLenOk s with
      | true => exact ⟨hm, hp, rfl⟩
      | false => cases (deriveCheck_of_overlong_pp s hp).symm.trans h

/-! ### What the updates of EVENT and IE keep -/

/-- Recording any cause sets no reserved bit (R32). -/
theorem reserved_withEvent (e : Event) (ev : BitVec 9) (h : ev &&& ~~~eventMask = 0) :
    withEvent e ev &&& ~~~eventMask = 0 := by
  have hcode : (1#9 <<< e.code) &&& ~~~eventMask = 0 := by cases e <;> decide
  unfold withEvent
  rw [BitVec.and_comm, BitVec.and_or_distrib_left, BitVec.and_comm, h, BitVec.and_comm, hcode]
  rfl

/-- No update of EVENT sets a reserved bit. -/
theorem EventUpdate.reserved {ev ev' : BitVec 9} (hu : EventUpdate ev ev') (h : ev &&& ~~~eventMask = 0) :
    ev' &&& ~~~eventMask = 0 := by
  cases hu with
  | kept => exact h
  | raised e => exact reserved_withEvent e ev h
  | written v =>
    unfold eventAfterWrite
    rw [BitVec.and_assoc, BitVec.and_comm (~~~_), ← BitVec.and_assoc, h]
    exact BitVec.zero_and

/-- No update of IE sets a reserved bit (R33). -/
theorem IeUpdate.reserved {ie ie' : BitVec 9} (hu : IeUpdate ie ie') (h : ie &&& ~~~eventMask = 0) :
    ie' &&& ~~~eventMask = 0 := by
  cases hu with
  | kept => exact h
  | written v =>
    have hmask : eventMask &&& ~~~eventMask = 0 := by decide
    unfold ieAfterWrite
    rw [BitVec.and_assoc, hmask]
    exact BitVec.and_zero

/-- Bit by bit, a write of EVENT keeps what the word does not name among the bits 6:0 (R32). -/
theorem getLsbD_eventAfterWrite (ev : BitVec 9) (v : Word) (n : Nat) :
    (eventAfterWrite ev v).getLsbD n = (ev.getLsbD n && !(decide (n < 7) && v.getLsbD n)) := by
  unfold eventAfterWrite
  by_cases hn : n < 9
  · simp [hn]
  · simp [BitVec.getLsbD_of_ge ev n (Nat.le_of_not_lt hn)]

/-- No update of EVENT touches F_INV (R170, R171). -/
theorem EventUpdate.fInv {ev ev' : BitVec 9} (hu : EventUpdate ev ev') : ev'.getLsbD 8 = ev.getLsbD 8 := by
  cases hu with
  | kept => rfl
  | raised e h => exact getLsbD_withEvent_of_ne e .fInv ev h
  | written v => rw [getLsbD_eventAfterWrite]; simp

/-! ### Every step keeps the invariants -/

/-- The reset state satisfies the invariant of the sequencer. -/
theorem sequencerInv_reset : State.reset.SequencerInv where
  run h := nomatch h
  fault h := nomatch h
  notRun _ := ⟨rfl, rfl⟩
  reserved := ⟨rfl, rfl⟩
  fInv := by decide

/-- Settles O11: every register is zero, and the sequencer is idle. -/
theorem resetStateIsInvariant : Obligations.ResetStateIsInvariant := by
  exact (inv_iff _).2 ⟨dataInv_reset, sequencerInv_reset⟩

/-- In IDLE the sequencer's invariant is about SEQ, WRK, EVENT and IE alone. -/
theorem State.SequencerInv.of_idle {s t : State} (h : s.SequencerInv) (hs : s.phase = .idle) (ht : t.phase = .idle)
    (hcmd : t.cmd = s.cmd) (hwrk : t.wrk = s.wrk) (hev : t.event = s.event) (hie : t.ie = s.ie) :
    t.SequencerInv where
  run hp := nomatch ht.symm.trans hp
  fault hp := nomatch ht.symm.trans hp
  notRun _ := by rw [hcmd, hwrk]; exact h.notRun (by rw [hs]; decide)
  reserved := by rw [hev, hie]; exact h.reserved
  fInv := by rw [hev, h.fInv, hs, ht]

/-- A turn that changes EVENT, IE, the reply and, in RUN, WRK keeps the sequencer's invariant. -/
theorem State.SequencerInv.of_update {s : State} (h : s.SequencerInv) (rest : List Turn) (ev ie : BitVec 9)
    (k : Working) (reply : Option Word) (hk : s.phase ≠ .run → k = s.wrk) (hev : EventUpdate s.event ev)
    (hie : IeUpdate s.ie ie) :
    State.SequencerInv { s with event := ev, ie := ie, wrk := k, agenda := rest, reply := reply } where
  run hp := by
    obtain ⟨i, hcmd, hlast, hf⟩ := h.run hp
    exact ⟨i, hcmd, hlast, hf.of_sameData rfl⟩
  fault := h.fault
  notRun hp := ⟨(h.notRun hp).1, (hk hp).trans (h.notRun hp).2⟩
  reserved := ⟨hev.reserved h.reserved.1, hie.reserved h.reserved.2⟩
  fInv := by rw [hev.fInv]; exact h.fInv

/-- The accept of a command establishes what its flight implies (R82). -/
theorem sequencerInv_accept (i : Instr) (s : State) (h : s.SequencerInv) (hp : s.phase = .idle)
    (hc : preCheck i s = none) : (accept i (invalidation i) s).SequencerInv where
  run _ := ⟨i, rfl, rfl, (inFlight_of_preCheck i s hc).of_sameData rfl⟩
  fault h := nomatch h
  notRun h := absurd rfl h
  reserved := by
    have hie : (invalidation i s).ie = s.ie := by cases i <;> rfl
    rw [accept_event, accept_ie, invalidation_event, hie]
    exact h.reserved
  fInv := by
    rw [accept_event, invalidation_event, h.fInv, hp, accept_phase]
    decide

/-- The common completion of results that leave EVENT and IE: SEQ is idle, WRK is zero, and DONE is no reserved bit
(R84). -/
theorem sequencerInv_finish (s r : State) (h : s.SequencerInv) (hp : s.phase ≠ .fault) (hev : r.event = s.event)
    (hie : r.ie = s.ie) : (finish r).SequencerInv where
  run h := nomatch h
  fault h := nomatch h
  notRun _ := ⟨rfl, rfl⟩
  reserved := by
    rw [finish_event, finish_ie, hev, hie]
    exact ⟨reserved_withEvent .done _ h.reserved.1, h.reserved.2⟩
  fInv := by
    have hbit : (withEvent .done s.event).getLsbD 8 = s.event.getLsbD 8 :=
      getLsbD_withEvent_of_ne .done .fInv _ (by decide)
    rw [finish_event, hev, hbit, h.fInv, finish_phase]
    exact iff_of_false hp (by decide)

/-- Two states that agree in everything but the data registers. -/
structure State.SameControl (s t : State) : Prop where
  lastop : t.lastop = s.lastop
  event : t.event = s.event
  ie : t.ie = s.ie
  phase : t.phase = s.phase
  cmd : t.cmd = s.cmd
  wrk : t.wrk = s.wrk
  agenda : t.agenda = s.agenda
  reply : t.reply = s.reply

/-- The results of a command are data registers alone. -/
theorem sameControl_results (i : Instr) (s : State) : s.SameControl (results i s) := by
  cases i with
  | nop | csum | pack | encode | derive => exact ⟨rfl, rfl, rfl, rfl, rfl, rfl, rfl, rfl⟩
  | clear g =>
    show s.SameControl (clearGroups g s)
    rw [clearGroups_eq]
    exact ⟨rfl, rfl, rfl, rfl, rfl, rfl, rfl, rfl⟩

/-- So is what a write of an input register stores (R59). -/
theorem sameControl_writeInput (r : Target) (v : Word) (s : State) : s.SameControl (writeInput r v s) := by
  cases r <;> exact ⟨rfl, rfl, rfl, rfl, rfl, rfl, rfl, rfl⟩

/-- So is what an accept invalidates (R37). -/
theorem sameControl_invalidation (i : Instr) (s : State) : s.SameControl (invalidation i s) := by
  cases i <;> exact ⟨rfl, rfl, rfl, rfl, rfl, rfl, rfl, rfl⟩

/-- The turn a step takes changes nothing of the invariants. -/
theorem sequencerInv_atTurn (s : State) (h : s.SequencerInv) (rest : List Turn) : (s.atTurn rest).SequencerInv :=
  h.of_update rest s.event s.ie s.wrk none (fun _ => rfl) .kept .kept

/-- Settles O12: the two halves of the invariant, effect by effect. The work in flight never comes to a failed
assertion. -/
theorem everyStepKeepsTheInvariants : Obligations.EveryStepKeepsTheInvariants := by
  intro s t hinv hstep
  obtain ⟨hd, hs⟩ := (inv_iff s).1 hinv
  have hdata (rest : List Turn) : (s.atTurn rest).DataInv := hd.of_sameData rfl
  have hseq (rest : List Turn) : (s.atTurn rest).SequencerInv := sequencerInv_atTurn s hs rest
  have hfly (i : Instr) (hi : s.cmd = encode i) (hp : s.phase = .run) (rest : List Turn) :
      (s.atTurn rest).InFlight i := (inFlight_of_cmd s hinv hp i hi).of_sameData rfl
  refine (inv_iff t).2 ?_
  cases stepEffect_of_step s t hstep with
  | reset rest =>
    exact ⟨dataInv_reset.of_sameData rfl,
      sequencerInv_reset.of_update rest 0 0 Working.zero none (fun _ => rfl) .kept .kept⟩
  | report ev ie reply hev hie =>
    exact ⟨hd.of_sameData rfl, hs.of_update _ ev ie s.wrk reply (fun _ => rfl) hev hie⟩
  | work rest _ hp k =>
    exact ⟨hd.of_sameData rfl, hs.of_update rest s.event s.ie k none (fun hne => absurd hp hne) .kept .kept⟩
  | store a v rest r _ hp hin _ =>
    have hc := sameControl_writeInput r v (s.atTurn rest)
    exact ⟨dataInv_writeInput r v _ (hdata rest) hin,
      (hseq rest).of_idle hp (hc.phase.trans hp) hc.cmd hc.wrk hc.event hc.ie⟩
  | accept i rest _ hp hc =>
    exact ⟨(dataInv_invalidation i _ (hdata rest)).of_sameData rfl, sequencerInv_accept i _ (hseq rest) hp hc⟩
  | finish i hi hp =>
    have hc := sameControl_results i (s.atTurn s.agenda.tail)
    have hne : s.phase ≠ .fault := by rw [hp]; decide
    exact ⟨(dataInv_results i _ (hdata _) (hfly i hi hp _)).of_sameData rfl,
      sequencerInv_finish (s.atTurn s.agenda.tail) _ (hseq _) hne hc.event hc.ie⟩
  | fault i hi hp _ hw => cases (work_of_inFlight i _ (hdata _) (hfly i hi hp _)).symm.trans hw

/-! ### No step stops the model -/

/-- In IDLE no command stops the model: it is refused or accepted. -/
theorem exists_writeCmd (v : Word) (s : State) (h : s.phase = .idle) : ∃ t, writeCmd v s = .next t := by
  cases hd : decodeWord v with
  | error e => exact ⟨_, writeCmd_of_error v s e hd⟩
  | ok i => exact ⟨_, (writeCmd_of_ok v s i hd).trans (exec_idle i s h)⟩

/-- No write transaction stops the model, in any state. -/
theorem exists_memWrite (a : Addr) (v : Word) (s : State) : ∃ t, memWrite a v s = .next t := by
  cases ht : target a with
  | none => exact ⟨_, memWrite_of_none a v s ht⟩
  | some r =>
    cases hro : r.readOnly with
    | true => exact ⟨_, memWrite_of_readOnly a r v s ht hro⟩
    | false =>
      rcases input_cases_of_writable r hro with rfl | rfl | rfl | hr
      · rw [memWrite_of_phased a .cmd v s ht (.inl rfl)]
        cases hp : s.phase with
        | idle => rw [writePhased_idle_cmd v s hp]; exact exists_writeCmd v s hp
        | run => exact ⟨_, writePhased_run .cmd v s hp⟩
        | fault => exact ⟨_, writePhased_fault .cmd v s hp⟩
      · exact ⟨_, memWrite_of_event a v s ht⟩
      · exact ⟨_, memWrite_of_ie a v s ht⟩
      · rw [memWrite_of_phased a r v s ht (.inr hr)]
        cases hp : s.phase with
        | idle => exact ⟨_, writePhased_idle_input r v s hp hr⟩
        | run => exact ⟨_, writePhased_run r v s hp⟩
        | fault => exact ⟨_, writePhased_fault r v s hp⟩

/-- From the invariants the engine's turn in RUN is the common completion of the results in flight (R84). -/
theorem engineTurn_of_inv (s : State) (h : s.Inv) (hp : s.phase = .run) :
    ∃ i, engineTurn s = .next (finish (results i s)) := by
  obtain ⟨i, hcmd, -, hf⟩ := h.run hp
  obtain ⟨hd, -⟩ := (inv_iff s).1 h
  refine ⟨i, ?_⟩
  rw [engineTurn_run s i hp (hcmd ▸ decodeWord_encode i)]
  exact exec_run_of_results i s _ hp (work_of_inFlight i s hd hf)

/-- The invariants say nothing of the turns to come and of the reply. -/
theorem inv_atTurn (s : State) (h : s.Inv) (rest : List Turn) : (s.atTurn rest).Inv := by
  obtain ⟨hd, hs⟩ := (inv_iff s).1 h
  exact (inv_iff _).2 ⟨hd.of_sameData rfl, sequencerInv_atTurn s hs rest⟩

/-- From the invariants no engine's turn stops the model. -/
theorem exists_engineTurn (s : State) (h : s.Inv) : ∃ t, engineTurn s = .next t := by
  by_cases hp : s.phase = .run
  · obtain ⟨i, hi⟩ := engineTurn_of_inv s h hp
    exact ⟨_, hi⟩
  · exact ⟨s, engineTurn_not_run s hp⟩

/-- From the invariants no step stops the model. -/
theorem exists_step (s : State) (h : s.Inv) : ∃ t, step s = .next t := by
  cases ha : s.agenda with
  | nil =>
    rw [step_nil s ha]
    exact exists_engineTurn _ (inv_atTurn s h [])
  | cons u rest =>
    rw [step_cons s u rest ha]
    cases u with
    | read a => exact ⟨_, rfl⟩
    | write a v => exact exists_memWrite a v _
    | complete => exact exists_engineTurn _ (inv_atTurn s h rest)
    | work => exact ⟨_, rfl⟩
    | reset => exact ⟨_, rfl⟩

/-- Settles O13: a step exists; of the effects only the failed assertion enters FAULT, and the work in flight does not
come to one. -/
theorem noStepStopsOrFaults : Obligations.NoStepStopsOrFaults := by
  intro s hinv
  obtain ⟨t, hstep⟩ := exists_step s hinv
  refine ⟨t, hstep, fun hfault => ?_⟩
  cases stepEffect_of_step s t hstep with
  | reset | accept | finish => cases hfault
  | report | work => exact hfault
  | store a v rest r => exact (sameControl_writeInput r v (s.atTurn rest)).phase.symm.trans hfault
  | fault i hi hp _ hw =>
    obtain ⟨hd, -⟩ := (inv_iff s).1 hinv
    have hd' : (s.atTurn s.agenda.tail).DataInv := hd.of_sameData rfl
    have hf : (s.atTurn s.agenda.tail).InFlight i := (inFlight_of_cmd s hinv hp i hi).of_sameData rfl
    cases (work_of_inFlight i _ hd' hf).symm.trans hw

/-! ### What each effect leaves -/

/-- Settles O16: in FAULT the effects that need another phase are out, which leaves reset and a report. -/
theorem onlyResetLeavesFault : Obligations.OnlyResetLeavesFault := by
  intro s t hp hstep
  cases stepEffect_of_step s t hstep with
  | reset rest ha => exact .inl ⟨rest, ha, rfl⟩
  | report ev ie reply hev => exact .inr ⟨rfl, hev.fInv⟩
  | work _ _ hrun => cases hp.symm.trans hrun
  | store _ _ _ _ _ hidle => cases hp.symm.trans hidle
  | accept _ _ _ hidle => cases hp.symm.trans hidle
  | finish _ _ hrun => cases hp.symm.trans hrun
  | fault _ _ hrun => cases hp.symm.trans hrun

/-- The first turn of the agenda, by its name in an effect. -/
theorem turn_eq_of_agenda {s : State} {u v : Turn} {rest rest' : List Turn} (ha : s.agenda = u :: rest)
    (hv : s.agenda = v :: rest') : u = v ∧ rest = rest' :=
  List.cons.inj (ha.symm.trans hv)

/-- A first turn that is the engine's is the completion. -/
theorem turn_eq_complete {s : State} {u : Turn} {rest : List Turn} (ha : s.agenda = u :: rest)
    (hv : s.agenda = [] ∨ ∃ rest', s.agenda = .complete :: rest') : u = .complete := by
  rcases hv with hv | ⟨rest', hv⟩
  · cases ha.symm.trans hv
  · exact (turn_eq_of_agenda ha hv).1

/-- Settles O17: without completion and reset, a step in RUN is a report or an internal step. -/
theorem registersFrozenInFlight : Obligations.RegistersFrozenInFlight := by
  intro s t u rest hp ha hcomplete hreset hstep
  cases stepEffect_of_step s t hstep with
  | reset rest' hv => exact absurd (turn_eq_of_agenda ha hv).1 hreset
  | report ev ie reply =>
    rw [ha]
    exact ⟨rfl, fun _ => rfl⟩
  | work rest' hv _ k =>
    obtain ⟨rfl, rfl⟩ := turn_eq_of_agenda ha hv
    exact ⟨rfl, fun hne => absurd rfl hne⟩
  | store _ _ _ _ _ hidle => cases hp.symm.trans hidle
  | accept _ _ _ hidle => cases hp.symm.trans hidle
  | finish _ _ _ hv => exact absurd (turn_eq_complete ha hv) hcomplete
  | fault _ _ _ hv => exact absurd (turn_eq_complete ha hv) hcomplete

/-- Settles O18: of the effects only reset and the accept write LASTOP. -/
theorem lastopChangesOnlyAtAccept : Obligations.LastopChangesOnlyAtAccept := by
  intro s t hstep hne
  cases stepEffect_of_step s t hstep with
  | reset rest ha => exact .inl ⟨rest, ha⟩
  | accept i rest ha hp => exact .inr ⟨i, rest, ha, hp, rfl, rfl, rfl⟩
  | report | work | fault => exact absurd rfl hne
  | store a v rest r => exact absurd (sameControl_writeInput r v (s.atTurn rest)).lastop hne
  | finish i => exact absurd (sameControl_results i (s.atTurn s.agenda.tail)).lastop hne

/-- An update of EVENT sets one bit at most (R161). -/
theorem EventUpdate.unique_new_bit {ev ev' : BitVec 9} (hu : EventUpdate ev ev') (n m : Nat)
    (hn : ev'.getLsbD n = true) (hn' : ev.getLsbD n = false) (hm : ev'.getLsbD m = true)
    (hm' : ev.getLsbD m = false) : n = m := by
  cases hu with
  | kept => cases hn.symm.trans hn'
  | raised e =>
    have new (k : Nat) (hk : (withEvent e ev).getLsbD k = true) (hk' : ev.getLsbD k = false) : e.code = k := by
      unfold withEvent at hk
      rw [BitVec.getLsbD_or, hk', Bool.false_or, ← BitVec.twoPow_eq, BitVec.getLsbD_twoPow] at hk
      simp only [Bool.and_eq_true, decide_eq_true_eq] at hk
      exact hk.2
    exact (new n hn hn').symm.trans (new m hm hm')
  | written v =>
    rw [getLsbD_eventAfterWrite, hn'] at hn
    cases hn

/-- Settles O19: a transaction is a report, or it leaves EVENT as it is. -/
theorem oneEventBitPerTransaction : Obligations.OneEventBitPerTransaction := by
  intro s t u rest ha hu hstep n m hn hn' hm hm'
  have hkept (h : t.event = s.event) : n = m := by
    rw [h, hn'] at hn
    cases hn
  have hcomplete : u ≠ .complete := by rcases hu with ⟨a, rfl⟩ | ⟨a, v, rfl⟩ <;> simp
  have hreset : u ≠ .reset := by rcases hu with ⟨a, rfl⟩ | ⟨a, v, rfl⟩ <;> simp
  cases stepEffect_of_step s t hstep with
  | reset rest' hv => exact absurd (turn_eq_of_agenda ha hv).1 hreset
  | report ev ie reply hev => exact hev.unique_new_bit n m hn hn' hm hm'
  | work => exact hkept rfl
  | store a v rest' r => exact hkept (sameControl_writeInput r v (s.atTurn rest')).event
  | accept i rest' => exact hkept (sameControl_invalidation i (s.atTurn rest')).event
  | finish _ _ _ hv => exact absurd (turn_eq_complete ha hv) hcomplete
  | fault _ _ _ hv => exact absurd (turn_eq_complete ha hv) hcomplete

/-- In RUN a step leaves RUN, or stays there with one turn less to come. -/
theorem phase_or_agenda_of_step (s t : State) (h : s.Inv) (hp : s.phase = .run) (hstep : step s = .next t) :
    t.phase ≠ .run ∨ ∃ u, s.agenda = u :: t.agenda := by
  cases ha : s.agenda with
  | nil =>
    obtain ⟨i, hi⟩ := engineTurn_of_inv (s.atTurn []) (inv_atTurn s h []) hp
    rw [step_nil s ha, hi] at hstep
    cases hstep
    exact .inl (by rw [finish_phase]; decide)
  | cons u rest =>
    have htail : s.agenda.tail = rest := by rw [ha]; rfl
    cases stepEffect_of_step s t hstep with
    | reset | finish | fault => exact .inl (fun h => nomatch h)
    | report => exact .inr ⟨u, congrArg (u :: ·) htail.symm⟩
    | work rest' hv => exact .inr ⟨u, by rw [← ha, hv]; cases ha.symm.trans hv; rfl⟩
    | store _ _ _ _ _ hidle => cases hp.symm.trans hidle
    | accept _ _ _ hidle => cases hp.symm.trans hidle

/-- Settles O20, by induction on the turns to come. -/
theorem acceptedCommandLeavesRun : Obligations.AcceptedCommandLeavesRun := by
  intro s hinv hp
  induction hn : s.agenda.length generalizing s with
  | zero =>
    obtain ⟨t, hstep, -⟩ := noStepStopsOrFaults s hinv
    rcases phase_or_agenda_of_step s t hinv hp hstep with hout | ⟨u, hu⟩
    · exact ⟨1, t, le_rfl, ⟨t, hstep, rfl⟩, hout⟩
    · rw [hu] at hn
      cases hn
  | succ n ih =>
    obtain ⟨t, hstep, -⟩ := noStepStopsOrFaults s hinv
    by_cases hout : t.phase = .run
    · obtain ⟨u, hu⟩ := (phase_or_agenda_of_step s t hinv hp hstep).resolve_left (not_not.2 hout)
      have hlen : t.agenda.length = n := by
        rw [hu, List.length_cons] at hn
        exact Nat.succ.inj hn
      obtain ⟨k, v, hk, hreach, hv⟩ := ih t (everyStepKeepsTheInvariants s t hinv hstep) hout hlen
      exact ⟨k + 1, v, Nat.succ_le_succ hk, ⟨t, hstep, hreach⟩, hv⟩
    · exact ⟨1, t, Nat.le_add_left 1 _, ⟨t, hstep, rfl⟩, hout⟩

/-! ### Where a valid seed comes from -/

/-- The seed of a state with a valid one, and the inputs it may stand beside, after `CLEAR` (R152). -/
theorem seed_of_clearGroups (g : BitVec 3) (s : State) (h : (clearGroups g s).seedValid = true) :
    s.seedValid = true ∧ (clearGroups g s).seed = s.seed ∧
      ((clearGroups g s).kdfInputs = s.kdfInputs ∨ g.getLsbD 1 = true) := by
  rw [clearGroups_eq] at h ⊢
  cases hseed : g.getLsbD 2 with
  | true => simp [hseed] at h
  | false =>
    rw [hseed] at h
    refine ⟨h, rfl, ?_⟩
    cases g.getLsbD 1 with
    | true => exact .inr rfl
    | false => exact .inl rfl

/-- A write of an input that leaves a valid seed touches neither it nor the KDF inputs (R37). -/
theorem seed_of_writeInput (r : Target) (v : Word) (s : State) (h : (writeInput r v s).seedValid = true) :
    s.seedValid = true ∧ (writeInput r v s).seed = s.seed ∧ (writeInput r v s).kdfInputs = s.kdfInputs := by
  cases r with
  | mnLen | ppLen | ppCtrl | mn | pp => cases h
  | _ => exact ⟨h, rfl, rfl⟩

/-- So does an accept that leaves one (R82). -/
theorem seed_of_invalidation (i : Instr) (s : State) (h : (invalidation i s).seedValid = true) :
    s.seedValid = true ∧ (invalidation i s).seed = s.seed ∧ (invalidation i s).kdfInputs = s.kdfInputs := by
  cases i with
  | derive => cases h
  | _ => exact ⟨h, rfl, rfl⟩

/-- The seed bytes a `DERIVE` commits are those it computed, one by one (R141). -/
theorem get_seedResults (s : State) (h : s.seed.wf) (i : Nat) (hi : i < 64) :
    (seedResults s).seed.get i = (pbkdf2 (password s) (salt s)).getD i 0 := by
  rw [seedResults_seed, Memory.get_setBytes _ _ _ h]
  exact if_pos hi

/-- Settles O15: of the effects only the completion of `DERIVE` makes a seed valid. -/
theorem seedComesFromDerive : Obligations.SeedComesFromDerive := by
  intro s t hinv hstep hv
  cases stepEffect_of_step s t hstep with
  | reset | fault => cases hv
  | report | work => exact .inl ⟨hv, rfl, .inl rfl⟩
  | store a v rest r =>
    obtain ⟨hs, hseed, hin⟩ := seed_of_writeInput r v (s.atTurn rest) hv
    exact .inl ⟨hs, hseed, .inl hin⟩
  | accept i rest =>
    obtain ⟨hs, hseed, hin⟩ := seed_of_invalidation i (s.atTurn rest) hv
    exact .inl ⟨hs, hseed, .inl hin⟩
  | finish i hi hp =>
    cases i with
    | nop | csum | pack | encode => exact .inl ⟨hv, rfl, .inl rfl⟩
    | derive => exact .inr ⟨hp, hi, rfl, get_seedResults (s.atTurn s.agenda.tail) hinv.memory.seed.1⟩
    | clear g =>
      obtain ⟨hs, hseed, hin⟩ := seed_of_clearGroups g (s.atTurn s.agenda.tail) hv
      exact .inl ⟨hs, hseed, hin.imp_right fun hg => ⟨hp, g, hi, hg⟩⟩

end Sys2Proof.Machine

/-! PROOFS of the family other, part 3: single transactions and registers (R25, R32, R65, R67), and the completion of
each command in RUN but for the packer's (R84): what it commits, and when it is a fault entry or stops the model. -/

namespace Sys2Proof.Machine

/-! ### Transactions and registers -/

/-- Settles O29: the first read leaves the second what it found, but for the reply. -/
theorem readsAreIdempotent : Obligations.ReadsAreIdempotent := by
  intro s a rest h
  cases ht : target a with
  | none =>
    have hfirst := step_read_of_none s a (.read a :: rest) ht h
    exact ⟨_, _, hfirst, step_read_of_none _ a rest ht rfl, rfl, by simp⟩
  | some r =>
    have hfirst := step_read_of_target s a r (.read a :: rest) ht h
    refine ⟨_, _, hfirst, step_read_of_target _ a r rest ht rfl, ?_, by simp⟩
    exact congrArg some ((readTarget_atTurn s rest r).trans (readTarget_atTurn s (.read a :: rest) r).symm)

/-- Settles O30: line 3 of R59 comes before every line that looks at the phase. -/
theorem eventIsWriteOneToClear : Obligations.EventIsWriteOneToClear := by
  intro s v rest h
  have ht : target 0x010 = some .event := target_ofNat .event rfl
  exact ⟨_, (step_write s _ v rest h).trans (memWrite_of_event _ v _ ht), rfl, getLsbD_eventAfterWrite s.event v⟩

/-- The number of a word written in two parts. -/
theorem toNat_append_eq {m n : Nat} (x : BitVec m) (y : BitVec n) : (x ++ y).toNat = x.toNat * 2 ^ n + y.toNat := by
  rw [BitVec.toNat_append, ← Nat.shiftLeft_add_eq_or_of_lt y.isLt, Nat.shiftLeft_eq]

/-- The right-aligned checksum as a number (R25). -/
theorem toNat_csVal (s : State) :
    (csVal s).toNat = if s.csw = 0 then 0 else s.cs.toNat / 2 ^ (8 - s.csw.toNat) := by
  unfold csVal
  split_ifs with h
  · rfl
  · rw [BitVec.toNat_ushiftRight, Nat.shiftRight_eq_div_pow]

/-- Settles O34: the five parts of the word, each at its place. -/
theorem checksumRegisterFields : Obligations.ChecksumRegisterFields := by
  intro s _
  show (csumOutWord s).toNat = _
  unfold csumOutWord
  rw [toNat_append_eq, toNat_append_eq, toNat_append_eq, toNat_append_eq, toNat_csVal]
  simp only [BitVec.toNat_ofNat, Nat.zero_mod]
  ring

/-- Settles O35: the flags of the group in flight are clear, and without its flag a register reads zero. -/
theorem outputsReadZeroInFlight : Obligations.OutputsReadZeroInFlight := by
  intro s hinv hp
  refine ⟨fun hc => ?checksum, fun hc => ?indices, fun hc w => ?seed⟩
  case checksum => exact readTarget_csumOut_of_invalid s hinv (csValid_of_inFlight s hinv hp hc)
  case indices =>
    have hv := idxValid_of_inFlight s hinv hp hc
    exact ⟨readTarget_idxCnt_of_invalid s hinv hv, readTarget_idx_of_invalid s hinv hv⟩
  case seed => exact readTarget_seed_of_invalid s hinv (seedValid_of_inFlight s hinv hp hc) w

/-! ### NOP and CLEAR -/

/-- Settles O37: no pre-check at the accept, no work at the completion. -/
theorem nopCompletes : Obligations.NopCompletes := by
  refine ⟨fun s hp => ?accept, fun s hp => ?completion, ?fromReset⟩
  case accept => exact (acceptStartsTheCommand s hp).1
  case completion => exact exec_run_of_results .nop s s hp rfl
  case fromReset => exact ⟨_, reaches_two _ _ _ rfl rfl, by decide, by decide⟩

/-- Settles O48: the accept invalidates nothing, and the completion is the common one of what the mask leaves. -/
theorem clearZeroisesItsGroups : Obligations.ClearZeroisesItsGroups := by
  intro s g
  refine ⟨fun hp => ?accept, fun hp => ?completion⟩
  case accept =>
    obtain ⟨-, -, -, -, hclear⟩ := acceptStartsTheCommand s hp
    exact hclear g
  case completion =>
    rw [exec_run_of_results (.clear g) s _ hp rfl, clearGroups_eq]
    rfl

/-! ### CSUM and DERIVE -/

/-- Settles O39: the completion commits the checksum of the entropy, whose bits are those of the extraction. -/
theorem csumCommitsTheChecksum : Obligations.CsumCommitsTheChecksum := by
  intro s hp hn
  have hok := entropyOk_of_mem s hn
  refine ⟨_, exec_run_of_results .csum s _ hp (csumCommit_of_ok s hok), rfl, toNat_csw_checksumResults s hok, ?_⟩
  exact getLsbD_csx (sha256 (entropy s)) (checksumBits s)

/-- Settles O47: the passphrase is looked at only when it is present, and one of no bytes adds none. -/
theorem saltOfThePassphrase : Obligations.SaltOfThePassphrase := by
  intro s
  refine ⟨fun hp => ?present, fun hp => ?absent, fun hlen => ?empty⟩
  case present =>
    rw [salt, passphrase, hp]
    rfl
  case absent =>
    rw [salt, passphrase, hp]
    rfl
  case empty =>
    simp [salt, passphrase, hlen, Memory.bytes]

/-- Settles O45: the completion commits the derived seed, byte by byte. -/
theorem deriveCommitsTheSeed : Obligations.DeriveCommitsTheSeed := by
  intro s hp hmem hm hpp
  have hwork := deriveCommit_of_ok s (decide_eq_true hm) (ppLenOk_of_le s hpp)
  exact ⟨_, exec_run_of_results .derive s _ hp hwork, rfl, get_seedResults s hmem.seed.1⟩

/-! ### Faults of corrupted states -/

/-- Settles O24: the first assertion of `PACK` fails, and the completion is the fault entry. -/
theorem faultEntryZeroisesEverything : Obligations.FaultEntryZeroisesEverything := by
  intro s hp hw
  rw [exec_run .pack s hp, work, packCommit_of_width s hw]
  rfl

/-- A completion stops the model exactly when the command's work is refused (log entry 8). -/
theorem exec_run_eq_fault_iff (i : Instr) (s : State) (hp : s.phase = .run) :
    exec i s = .fault .operandsRefused ↔ work i s = .refused := by
  rw [exec_run i s hp]
  cases work i s <;> simp [complete]

/-- A completion never finds its word illegal: it is the decoder's word. -/
theorem exec_run_ne_illegal (i : Instr) (s : State) (hp : s.phase = .run) :
    exec i s ≠ .fault .illegalInFlight := by
  rw [exec_run i s hp]
  cases work i s <;> simp [complete]

/-- The work of `CSUM` is refused exactly outside the supported lengths. -/
theorem csumCommit_eq_refused_iff (s : State) : csumCommit s = .refused ↔ entropyOk s = false := by
  refine ⟨fun h => ?_, csumCommit_of_unsupported s⟩
  by_contra hok
  cases (csumCommit_of_ok s (Bool.eq_true_of_not_eq_false hok)).symm.trans h

/-- The work of `PACK` is refused exactly when its checksum has the width of an entropy with more bytes than there are
registers. -/
theorem packCommit_eq_refused_iff (s : State) :
    packCommit s = .refused ↔ 4 * s.csw.toNat = s.entN.toNat ∧ Config.entBytes < s.entN.toNat := by
  rcases packCommit_cases s with ⟨hw, hc⟩ | ⟨hw, hlong, hc⟩ | ⟨hw, hfit, hc⟩
  · simp [hc, hw]
  · simp [hc, hw, hlong]
  · simp [hc, Nat.not_lt.2 hfit]

/-- The work of `ENCODE` is refused exactly outside the supported lengths: on its own checksum the packer commits. -/
theorem encodeCommit_eq_refused_iff (s : State) : encodeCommit s = .refused ↔ entropyOk s = false := by
  refine ⟨fun h => ?_, encodeCommit_of_unsupported s⟩
  by_contra hok
  have hok' := Bool.eq_true_of_not_eq_false hok
  obtain ⟨-, hlong⟩ := (packCommit_eq_refused_iff _).1 ((encodeCommit_of_ok s hok').symm.trans h)
  exact absurd (entropyOk_sizes s hok').1 (Nat.not_le_of_lt hlong)

/-- The work of `DERIVE` is refused exactly for a text longer than its buffer. -/
theorem deriveCommit_eq_refused_iff (s : State) :
    deriveCommit s = .refused ↔ mnLenOk s = false ∨ ppLenOk s = false := by
  refine ⟨fun h => ?_, deriveCommit_of_overlong s⟩
  by_contra hok
  obtain ⟨hm, hp⟩ := not_or.1 hok
  cases (deriveCommit_of_ok s (Bool.eq_true_of_not_eq_false hm) (Bool.eq_true_of_not_eq_false hp)).symm.trans h

/-- The texts that are too long (R165). -/
theorem overlong_iff (s : State) :
    (mnLenOk s = false ∨ ppLenOk s = false) ↔
      Config.mnMax < s.mnLen.toNat ∨ (s.ppPresent = true ∧ Config.ppMax < s.ppLen.toNat) := by
  unfold mnLenOk ppLenOk
  simp

/-- The unsupported lengths (R163). -/
theorem entropyOk_eq_false_iff (s : State) :
    entropyOk s = false ↔ s.entN ∉ [16#32, 20#32, 24#32, 28#32, 32#32] := by
  rw [← entropyOk_iff, Bool.not_eq_true]

/-- In RUN the engine's turn finds its word illegal exactly when it is one of the illegal words (log entry 9). -/
theorem engineTurn_eq_illegal_iff (s : State) (hp : s.phase = .run) :
    engineTurn s = .fault .illegalInFlight ↔ illegalWord s.cmd := by
  rw [illegalWord_iff]
  cases hd : decodeWord s.cmd with
  | ok i =>
    rw [engineTurn_run s i hp hd]
    simp [exec_run_ne_illegal i s hp]
  | error e =>
    unfold engineTurn
    simp [hp, hd]

/-- Settles O25: for each command, when its work is refused; and when the decoder refuses the word in flight. -/
theorem corruptedCommandsStopTheModel : Obligations.CorruptedCommandsStopTheModel := by
  intro s hp
  refine ⟨?csum, ?encode, ?pack, ?derive, fun ha => ?illegal⟩
  case csum =>
    exact (exec_run_eq_fault_iff .csum s hp).trans
      ((csumCommit_eq_refused_iff s).trans (entropyOk_eq_false_iff s))
  case encode =>
    exact (exec_run_eq_fault_iff .encode s hp).trans
      ((encodeCommit_eq_refused_iff s).trans (entropyOk_eq_false_iff s))
  case pack => exact (exec_run_eq_fault_iff .pack s hp).trans (packCommit_eq_refused_iff s)
  case derive =>
    exact (exec_run_eq_fault_iff .derive s hp).trans ((deriveCommit_eq_refused_iff s).trans (overlong_iff s))
  case illegal =>
    rw [step_nil s ha]
    exact engineTurn_eq_illegal_iff (s.atTurn []) hp

end Sys2Proof.Machine

/-! PROOFS of the family other, part 4: the packer. A list of bits is a number, most significant bit first; the groups
are its base-2048 digits (R117), which determine the bits (R118). Then the completions of PACK and ENCODE (R114,
R116). -/

namespace Sys2Proof.Machine

/-! ### A list of bits as a number -/

/-- The number of a list of bits, most significant bit first (R112, R117). -/
def bitsValue (bits : List Bool) : Nat := bits.foldl (fun acc b => 2 * acc + b.toNat) 0

theorem bitsValue_concat (bits : List Bool) (b : Bool) : bitsValue (bits ++ [b]) = 2 * bitsValue bits + b.toNat := by
  rw [bitsValue, List.foldl_append]
  rfl

/-- The number of two lists of bits, one after the other. -/
theorem bitsValue_append (a b : List Bool) : bitsValue (a ++ b) = bitsValue a * 2 ^ b.length + bitsValue b := by
  induction b using List.reverseRecOn with
  | nil => simp [bitsValue]
  | append_singleton b x ih =>
    rw [← List.append_assoc, bitsValue_concat, bitsValue_concat, ih, List.length_append, List.length_singleton,
      pow_succ]
    ring

theorem bitsValue_lt (bits : List Bool) : bitsValue bits < 2 ^ bits.length := by
  induction bits using List.reverseRecOn with
  | nil => exact Nat.one_pos
  | append_singleton bits b ih =>
    have hb : b.toNat ≤ 1 := Bool.toNat_le b
    rw [bitsValue_concat, List.length_append, List.length_singleton, pow_succ]
    omega

/-- Two lists of as many bits with the same number are the same list. -/
theorem eq_of_bitsValue_eq (a b : List Bool) (hlen : a.length = b.length) (h : bitsValue a = bitsValue b) : a = b := by
  induction a generalizing b with
  | nil => exact (List.length_eq_zero_iff.1 hlen.symm).symm
  | cons x a ih =>
    cases b with
    | nil => cases hlen
    | cons y b =>
      have hlen' : a.length = b.length := Nat.succ.inj hlen
      have ha := bitsValue_lt a
      have hb := bitsValue_lt b
      rw [← List.singleton_append, ← List.singleton_append (l := b), bitsValue_append, bitsValue_append] at h
      rw [hlen'] at h ha
      have hx : bitsValue [x] = x.toNat := by simp [bitsValue]
      have hy : bitsValue [y] = y.toNat := by simp [bitsValue]
      rw [hx, hy] at h
      cases x <;> cases y <;> simp only [Bool.toNat_true, Bool.toNat_false, zero_mul, one_mul, zero_add] at h
      · rw [ih b hlen' h]
      · omega
      · omega
      · rw [ih b hlen' (by omega)]

/-- Some bits out of the middle are a quotient and a remainder. -/
theorem bitsValue_middle (a b c : List Bool) :
    bitsValue (a ++ (b ++ c)) / 2 ^ c.length % 2 ^ b.length = bitsValue b := by
  have hpos : 0 < 2 ^ c.length := Nat.two_pow_pos _
  rw [← List.append_assoc, bitsValue_append, Nat.mul_comm, Nat.mul_add_div hpos, Nat.div_eq_of_lt (bitsValue_lt c),
    Nat.add_zero, bitsValue_append, Nat.mul_comm, Nat.mul_add_mod, Nat.mod_eq_of_lt (bitsValue_lt b)]

/-! ### A group as a number -/

/-- The eleven bits of group `k`, zero beyond the end (R112). -/
def groupList (bits : List Bool) (k : Nat) : List Bool :=
  (List.range Config.groupBits).map fun j => bits.getD (Config.groupBits * k + j) false

@[simp] theorem length_groupList (bits : List Bool) (k : Nat) : (groupList bits k).length = 11 := by
  simp [groupList, Config.groupBits]

/-- A group is the number of its eleven bits (R112). -/
theorem group_eq_bitsValue (bits : List Bool) (k : Nat) : group bits k = bitsValue (groupList bits k) := by
  unfold group groupList
  generalize Config.groupBits * k = m
  simp only [Config.groupBits, bitsValue, List.range_succ, List.range_zero, List.nil_append, List.cons_append,
    List.map_cons, List.map_nil, List.sum_cons, List.sum_nil, List.foldl_cons, List.foldl_nil]
  ring

/-- A whole group stands between the bits before it and those after it. -/
theorem eq_append_groupList (bits : List Bool) (k : Nat) (h : 11 * (k + 1) ≤ bits.length) :
    bits = bits.take (11 * k) ++ (groupList bits k ++ bits.drop (11 * (k + 1))) := by
  have hgroup : groupList bits k = (bits.drop (11 * k)).take 11 := by
    refine List.ext_getElem (by simp; omega) fun j hj _ => ?_
    rw [length_groupList] at hj
    have hin : 11 * k + j < bits.length := by omega
    simp [groupList, Config.groupBits, hin]
  rw [hgroup, Nat.mul_succ, ← List.drop_drop, List.take_append_drop, List.take_append_drop]

/-- A whole group is a base-2048 digit of the number of all the bits (R117). -/
theorem group_eq_digit (bits : List Bool) (k : Nat) (h : 11 * (k + 1) ≤ bits.length) :
    group bits k = bitsValue bits / 2 ^ (bits.length - 11 * (k + 1)) % 2048 := by
  have hmid := bitsValue_middle (bits.take (11 * k)) (groupList bits k) (bits.drop (11 * (k + 1)))
  rw [← eq_append_groupList bits k h, List.length_drop, length_groupList] at hmid
  rw [group_eq_bitsValue]
  exact hmid.symm

/-! ### The number of the bit string -/

/-- The bits a byte has from bit `8 - c` upwards are a number of `c` bits. -/
theorem bitsValue_upperBits (b : Byte) (c : Nat) (hc : c ≤ 8) :
    bitsValue ((List.range c).map (msbBit fun _ => b)) = b.toNat / 2 ^ (8 - c) := by
  induction c with
  | zero => exact (Nat.div_eq_of_lt b.isLt).symm
  | succ c ih =>
    have hbit : (msbBit (fun _ => b) c).toNat = b.toNat / 2 ^ (8 - (c + 1)) % 2 := by
      have hplace : 7 - c % 8 = 8 - (c + 1) := by omega
      rw [msbBit, hplace, BitVec.getLsbD, Nat.toNat_testBit]
    have hhigh : b.toNat / 2 ^ (8 - c) = b.toNat / 2 ^ (8 - (c + 1)) / 2 := by
      rw [Nat.div_div_eq_div_mul, ← pow_succ]
      congr 2
      omega
    rw [List.range_succ, List.map_append, List.map_singleton, bitsValue_concat, ih (by omega), hbit, hhigh]
    omega

theorem fromBE_concat (s : List Byte) (b : Byte) : fromBE (s ++ [b]) = fromBE s * 256 + b.toNat := by
  rw [fromBE, List.foldl_append]
  rfl

/-- The bits of the first `n` bytes are their big-endian integer (R15, R111). -/
theorem bitsValue_bytes (f : Nat → Byte) (n : Nat) :
    bitsValue ((List.range (8 * n)).map (msbBit f)) = fromBE ((List.range n).map f) := by
  induction n with
  | zero => rfl
  | succ n ih =>
    have hbyte : ((List.range 8).map (8 * n + ·)).map (msbBit f) = (List.range 8).map (msbBit fun _ => f n) := by
      rw [List.map_map]
      refine List.map_congr_left fun j hj => ?_
      have hj8 := List.mem_range.1 hj
      unfold msbBit
      simp only [Function.comp]
      rw [Nat.mul_add_div (by decide), Nat.div_eq_of_lt hj8, Nat.add_zero, Nat.mul_add_mod]
    rw [Nat.mul_succ, List.range_add, List.map_append, hbyte, bitsValue_append, ih, bitsValue_upperBits _ 8 le_rfl,
      List.range_succ (n := n), List.map_append, List.map_singleton, fromBE_concat]
    simp

/-- The bit string as one integer: the entropy, then the checksum (R117). -/
theorem bitsValue_flatBits (s : State) (h : s.csw.toNat ≤ 8) :
    bitsValue (flatBits s) =
      fromBE (entropy s) * 2 ^ s.csw.toNat + s.cs.toNat / 2 ^ (8 - s.csw.toNat) := by
  unfold flatBits
  rw [bitsValue_append, bitsValue_bytes, bitsValue_upperBits s.cs _ h, List.length_map, List.length_range]
  rfl

/-- The sizes of a supported entropy with its checksum: the width, and the length of the bit string in groups (R8). -/
theorem sizes_of_mem (s : State) (hn : s.entN ∈ [16#32, 20#32, 24#32, 28#32, 32#32])
    (hw : s.csw.toNat = s.entN.toNat / 4) :
    s.csw.toNat ≤ 8 ∧ (flatBits s).length = 11 * (3 * s.entN.toNat / 4) := by
  obtain ⟨hle, hbits⟩ := entropyOk_sizes s (entropyOk_of_mem s hn)
  unfold checksumBits at hbits
  unfold Config.entBytes at hle
  rw [length_flatBits]
  omega

/-- Settles O43: a group is a digit of the bit string's number, and that number is the formula's. -/
theorem indicesAsOneInteger : Obligations.IndicesAsOneInteger := by
  intro s hn hw k hk
  obtain ⟨h8, hlen⟩ := sizes_of_mem s hn hw
  have hshift : (flatBits s).length - 11 * (k + 1) = 11 * (3 * s.entN.toNat / 4 - 1 - k) := by omega
  rw [group_eq_digit (flatBits s) k (by omega), hshift, bitsValue_flatBits s h8, hw]

/-! ### The groups determine the bits -/

/-- Equal groups have equal bits. -/
theorem getD_eq_of_group_eq (a b : List Bool) (k j : Nat) (hj : j < 11) (h : group a k = group b k) :
    a.getD (11 * k + j) false = b.getD (11 * k + j) false := by
  rw [group_eq_bitsValue, group_eq_bitsValue] at h
  have hlist := eq_of_bitsValue_eq _ _ (by simp) h
  exact List.map_inj_left.1 hlist j (List.mem_range.2 hj)

/-- The bits of the entropy in the bit string (R111). -/
theorem getD_flatBits_entropy (s : State) (i : Nat) (h : i < 8 * s.entN.toNat) :
    (flatBits s).getD i false = msbBit s.ent.get i := by
  unfold flatBits
  rw [List.getD_append _ _ _ _ (by simpa using h), List.getD_eq_getElem _ _ (by simpa using h)]
  simp

/-- The bits of the checksum in the bit string (R111). -/
theorem getD_flatBits_checksum (s : State) (i : Nat) (h : i < s.csw.toNat) :
    (flatBits s).getD (8 * s.entN.toNat + i) false = msbBit (fun _ => s.cs) i := by
  unfold flatBits
  rw [List.getD_append_right _ _ _ _ (by simp)]
  simp [h]

/-- A byte is known by its eight bits, most significant first. -/
theorem eq_of_msbBit_eq (f g : Nat → Byte) (n : Nat) (h : ∀ j < 8, msbBit f (8 * n + j) = msbBit g (8 * n + j)) :
    f n = g n := by
  refine BitVec.eq_of_getLsbD_eq fun b hb => ?_
  have hj := h (7 - b) (by omega)
  have hdiv : (8 * n + (7 - b)) / 8 = n := by omega
  have hmod : 7 - (8 * n + (7 - b)) % 8 = b := by omega
  unfold msbBit at hj
  rwa [hdiv, hmod] at hj

/-- Settles O44: equal indices are equal groups, equal groups have equal bits, and the bits of the entropy are among
them. -/
theorem indicesDetermineTheEntropy : Obligations.IndicesDetermineTheEntropy := by
  intro s t hn hnt hws hwt h
  obtain ⟨-, hlens⟩ := sizes_of_mem s hn hws
  obtain ⟨-, hlent⟩ := sizes_of_mem t (hnt ▸ hn) hwt
  have hlen : (flatBits s).length = (flatBits t).length := by rw [hlens, hlent, hnt]
  have hgroup (k : Nat) (hk : k < (flatBits s).length / 11) : group (flatBits s) k = group (flatBits t) k := by
    unfold groups at h
    rw [← hlen] at h
    exact List.map_inj_left.1 h k (List.mem_range.2 hk)
  have hbit (i : Nat) (hi : i < 8 * s.entN.toNat) : msbBit s.ent.get i = msbBit t.ent.get i := by
    rw [← getD_flatBits_entropy s i hi, ← getD_flatBits_entropy t i (hnt ▸ hi), ← Nat.div_add_mod i 11]
    rw [length_flatBits] at hlens
    exact getD_eq_of_group_eq _ _ _ _ (Nat.mod_lt _ (by decide)) (hgroup _ (by rw [length_flatBits]; omega))
  unfold entropy
  rw [hnt]
  exact Memory.bytes_congr _ _ _ fun n hlt => eq_of_msbBit_eq _ _ n fun j hj => hbit _ (by omega)

/-! ### The index registers -/

/-- The bit string, bit by bit, as R111 writes it. -/
theorem getD_flatBits (s : State) (i : Nat) (h8 : s.csw.toNat ≤ 8) (hi : i < (flatBits s).length) :
    (flatBits s).getD i false = s.bitB i := by
  rw [length_flatBits] at hi
  unfold State.bitB
  split_ifs with hent
  · exact getD_flatBits_entropy s i hent
  · have hrest : i - 8 * s.entN.toNat < s.csw.toNat := by omega
    have hcs := getD_flatBits_checksum s _ hrest
    rw [Nat.add_sub_of_le (Nat.le_of_not_lt hent)] at hcs
    rw [hcs, msbBit, Nat.mod_eq_of_lt (by omega)]

/-- A whole group is the sum of R112. -/
theorem group_flatBits (s : State) (k : Nat) (h8 : s.csw.toNat ≤ 8) (hk : 11 * (k + 1) ≤ (flatBits s).length) :
    group (flatBits s) k = s.indexG k := by
  refine congrArg List.sum (List.map_congr_left fun j hj => ?_)
  have hj11 : j < 11 := List.mem_range.1 hj
  rw [getD_flatBits s _ h8 (by unfold Config.groupBits; omega)]
  rfl

/-- An index register holds its group, and zero above their number (R114). -/
theorem toNat_indexRegs (bits : List Bool) (k : Fin 24) :
    (indexRegs (groups bits))[k].toNat = if k.val < bits.length / 11 then group bits k.val else 0 := by
  have hval : (groups bits).getD k.val 0 = if k.val < bits.length / 11 then group bits k.val else 0 := by
    unfold groups
    split_ifs with hk
    · simp [Config.groupBits, hk]
    · simp [Config.groupBits, Nat.le_of_not_lt hk]
  have hbound : (groups bits).getD k.val 0 < 2 ^ 11 := by
    have hle := group_le bits k.val
    unfold Config.indexMax at hle
    rw [hval]
    split_ifs <;> omega
  unfold indexRegs
  rw [Fin.getElem_fin, Vector.getElem_ofFn, BitVec.toNat_ofNat, Nat.mod_eq_of_lt hbound, hval]

/-- The index registers a packing commits: the groups of R112, zero above their number (R114). -/
theorem toNat_idx_indexResults (s : State) (hw : 4 * s.csw.toNat = s.entN.toNat)
    (hfit : s.entN.toNat ≤ Config.entBytes) (k : Fin 24) :
    (indexResults (groups (flatBits s)) s).idx[k].toNat =
      if k.val < 3 * s.entN.toNat / 4 then s.indexG k.val else 0 := by
  unfold Config.entBytes at hfit
  have hcount : (flatBits s).length / 11 = 3 * s.entN.toNat / 4 := by
    rw [length_flatBits]
    omega
  refine (toNat_indexRegs (flatBits s) k).trans ?_
  rw [hcount]
  split_ifs with hk
  · exact group_flatBits s k.val (by omega) (by omega)
  · rfl

/-- Settles O40: the completion commits the groups of the bit string and their number. -/
theorem packCommitsTheGroups : Obligations.PackCommitsTheGroups := by
  intro s hp hw hfit
  exact ⟨_, exec_run_of_results .pack s _ hp (packCommit_of_ok s hw hfit), rfl, toNat_idxCnt_indexResults s hw hfit,
    toNat_idx_indexResults s hw hfit⟩

/-- Settles O41: the completion commits the checksum of the entropy and the groups packed from it. -/
theorem encodeCommitsBothResults : Obligations.EncodeCommitsBothResults := by
  intro s hp hn
  have hok := entropyOk_of_mem s hn
  have hw := checksumResults_width s hok
  obtain ⟨hfit, -⟩ := entropyOk_sizes s hok
  exact ⟨_, exec_run_of_results .encode s _ hp (work_encode s hok), rfl, toNat_csw_checksumResults s hok, rfl,
    toNat_idxCnt_indexResults (checksumResults s) hw hfit, toNat_idx_indexResults (checksumResults s) hw hfit⟩

/-! ### Commands look at the data registers alone -/

section
variable (i : Instr) (s c : State)

/-- A pre-check looks at the data registers alone (R81). -/
theorem preCheck_withControl : preCheck i (s.withControl c) = preCheck i s := by
  cases i <;> rfl

/-- A command's results are computed from the data registers alone (R84). -/
theorem results_withControl : results i (s.withControl c) = (results i s).withControl c := by
  cases i with
  | clear g =>
    show clearGroups g (s.withControl c) = (clearGroups g s).withControl c
    rw [clearGroups_eq, clearGroups_eq]
    rfl
  | _ => rfl

end

/-- Two states with the same lengths: the registers that decide whether a command's work commits (R163 to R165,
R115). -/
structure State.SameSizes (s t : State) : Prop where
  entN : t.entN = s.entN
  csw : t.csw = s.csw
  mnLen : t.mnLen = s.mnLen
  ppLen : t.ppLen = s.ppLen
  ppPresent : t.ppPresent = s.ppPresent

/-- What a command's work comes to, with other results in place of those it commits. -/
def Commit.onto (r : State) : Commit → Commit
  | .results _ => .results r
  | .assertion => .assertion
  | .refused => .refused

/-- The lengths decide whether the work of `PACK` commits. -/
theorem packCommit_of_sameSizes (s t : State) (h : s.SameSizes t) :
    packCommit t = (packCommit s).onto (results .pack t) := by
  rcases packCommit_cases s with ⟨hw, hc⟩ | ⟨hw, hlong, hc⟩ | ⟨hw, hfit, hc⟩ <;> rw [hc]
  · exact packCommit_of_width t (by rwa [h.csw, h.entN])
  · exact (packCommit_eq_refused_iff t).2 (by rw [h.csw, h.entN]; exact ⟨hw, hlong⟩)
  · exact packCommit_of_ok t (by rwa [h.csw, h.entN]) (by rwa [h.entN])

/-- The lengths decide whether a command's work commits (R84). -/
theorem work_of_sameSizes (i : Instr) (s t : State) (h : s.SameSizes t) :
    work i t = (work i s).onto (results i t) := by
  have hentropy : entropyOk t = entropyOk s := by rw [entropyOk, h.entN, entropyOk]
  have hmn : mnLenOk t = mnLenOk s := by rw [mnLenOk, h.mnLen, mnLenOk]
  have hpp : ppLenOk t = ppLenOk s := by rw [ppLenOk, h.ppLen, h.ppPresent, ppLenOk]
  cases i with
  | nop | clear => rfl
  | pack => exact packCommit_of_sameSizes s t h
  | csum =>
    show csumCommit t = (csumCommit s).onto _
    cases hok : entropyOk s with
    | true => rw [csumCommit_of_ok s hok, csumCommit_of_ok t (hentropy.trans hok)]; rfl
    | false => rw [csumCommit_of_unsupported s hok, csumCommit_of_unsupported t (hentropy.trans hok)]; rfl
  | encode =>
    cases hok : entropyOk s with
    | true => rw [work_encode s hok, work_encode t (hentropy.trans hok)]; rfl
    | false =>
      show encodeCommit t = (encodeCommit s).onto _
      rw [encodeCommit_of_unsupported s hok, encodeCommit_of_unsupported t (hentropy.trans hok)]
      rfl
  | derive =>
    show deriveCommit t = (deriveCommit s).onto _
    by_cases hlong : mnLenOk s = false ∨ ppLenOk s = false
    · rw [deriveCommit_of_overlong s hlong, deriveCommit_of_overlong t (by rwa [hmn, hpp])]
      rfl
    · obtain ⟨hm, hp⟩ := not_or.1 hlong
      have hm' := Bool.eq_true_of_not_eq_false hm
      have hp' := Bool.eq_true_of_not_eq_false hp
      rw [deriveCommit_of_ok s hm' hp', deriveCommit_of_ok t (hmn.trans hm') (hpp.trans hp')]
      rfl

/-- Whether a command's work commits depends on the data registers alone (R84). -/
theorem work_withControl (i : Instr) (s c : State) :
    work i (s.withControl c) = (work i s).onto ((results i s).withControl c) := by
  rw [← results_withControl]
  exact work_of_sameSizes i s (s.withControl c) ⟨rfl, rfl, rfl, rfl, rfl⟩

/-! ### ENCODE is CSUM and then PACK -/

/-- One run after another. -/
theorem reaches_add (m n : Nat) (s t u : State) (hst : State.reaches m s t) (htu : State.reaches n t u) :
    State.reaches (m + n) s u := by
  induction m generalizing s with
  | zero =>
    obtain rfl : s = t := hst
    rwa [Nat.zero_add]
  | succ m ih =>
    obtain ⟨v, hstep, hrun⟩ := hst
    rw [Nat.succ_add]
    exact ⟨v, hstep, ih v hrun⟩

/-- The state as a command's completion finds it, when the completion follows the write of its word. -/
def afterAccept (i : Instr) (s : State) (rest : List Turn) : State :=
  (accept i (invalidation i) (s.atTurn (.complete :: rest))).atTurn rest

/-- The state a command leaves that is accepted and then completed (R82, R84). -/
def afterCommand (i : Instr) (s : State) (rest : List Turn) : State :=
  { results i (invalidation i s) with
    lastop := (encode i).extractLsb' 0 8, event := withEvent .done s.event, ie := s.ie, phase := .idle, cmd := 0,
    wrk := Working.zero, agenda := rest, reply := none }

/-- The completion finds the data registers as the accept leaves them. -/
theorem afterAccept_eq (i : Instr) (s : State) (rest : List Turn) :
    afterAccept i s rest = (invalidation i s).withControl (afterAccept i s rest) := by
  cases i <;> rfl

/-- The completion of a command just accepted. -/
theorem finish_results_afterAccept (i : Instr) (s : State) (rest : List Turn) :
    finish (results i (afterAccept i s rest)) = afterCommand i s rest := by
  have hevent : (afterAccept i s rest).event = s.event := (sameControl_invalidation i _).event
  have hie : (afterAccept i s rest).ie = s.ie := (sameControl_invalidation i _).ie
  rw [afterAccept_eq, results_withControl]
  unfold finish State.withControl afterCommand
  simp only
  rw [hevent, hie]
  rfl

/-- The write of a command's word in IDLE, its pre-checks passed, and its completion (R80). -/
theorem reaches_afterCommand (i : Instr) (s : State) (rest : List Turn) (hp : s.phase = .idle)
    (ha : s.agenda = .write 0x008 (encode i) :: .complete :: rest) (hc : preCheck i s = none)
    (hw : work i (invalidation i s) = .results (results i (invalidation i s))) :
    State.reaches 2 s (afterCommand i s rest) := by
  have hwrite : step s = .next (accept i (invalidation i) (s.atTurn (.complete :: rest))) := by
    have hc' : preCheck i (s.atTurn (.complete :: rest)) = none := 
      (preCheck_withControl i s (s.atTurn (.complete :: rest))).trans hc
    rw [stepRunsTheWrittenCommand s _ i _ hp ha (decodeWord_encode i), exec_idle i (s.atTurn _) hp, hc']
    rfl
  have hag : (accept i (invalidation i) (s.atTurn (.complete :: rest))).agenda = .complete :: rest :=
    (sameControl_invalidation i _).agenda
  have hwork : work i (afterAccept i s rest) = .results (results i (afterAccept i s rest)) := by
    rw [afterAccept_eq, work_withControl, hw, results_withControl]
    rfl
  have hcomplete : step (accept i (invalidation i) (s.atTurn (.complete :: rest))) = .next (afterCommand i s rest) := by
    rw [step_cons _ _ _ hag, ← finish_results_afterAccept]
    exact (engineTurn_run (afterAccept i s rest) i rfl (decodeWord_encode i)).trans
      (exec_run_of_results i _ _ rfl hwork)
  exact reaches_two s _ _ hwrite hcomplete

/-- Recording a cause twice is recording it once: events are sticky (R32). -/
theorem withEvent_withEvent (e : Event) (ev : BitVec 9) : withEvent e (withEvent e ev) = withEvent e ev := by
  unfold withEvent
  rw [BitVec.or_assoc, BitVec.or_self]

/-- The accept of `PACK` right after `CSUM` finds no indices to invalidate: the accept of `CSUM` did (R82). -/
theorem invalidation_pack_afterCommand_csum (s : State) (rest : List Turn) :
    invalidation .pack (afterCommand .csum s rest) =
      (results .csum (invalidation .csum s)).withControl (afterCommand .csum s rest) := rfl

/-- `PACK` right after `CSUM` commits (R115). -/
theorem work_pack_afterCommand_csum (s : State) (rest : List Turn) (hok : entropyOk s = true) :
    work .pack (invalidation .pack (afterCommand .csum s rest)) =
      .results (results .pack (invalidation .pack (afterCommand .csum s rest))) := by
  have hwork : work .pack (results .csum (invalidation .csum s)) =
      .results (results .pack (results .csum (invalidation .csum s))) :=
    packCommit_of_ok _ (checksumResults_width (invalidateEntropySide s) hok) (entropyOk_sizes s hok).1
  rw [invalidation_pack_afterCommand_csum, work_withControl, hwork, results_withControl]
  rfl

/-- `CSUM` and then `PACK` leave what `ENCODE` leaves, but for LASTOP (R116). -/
theorem afterCommand_encode_eq (s : State) (rest rest' : List Turn) :
    afterCommand .encode s rest' =
      { afterCommand .pack (afterCommand .csum s rest) rest' with lastop := (encode .encode).extractLsb' 0 8 } := by
  have hdata : results .pack (invalidation .pack (afterCommand .csum s rest)) =
      (results .encode (invalidation .encode s)).withControl (afterCommand .csum s rest) := by
    rw [invalidation_pack_afterCommand_csum, results_withControl]
    rfl
  have hdone : withEvent .done (afterCommand .csum s rest).event = withEvent .done s.event :=
    withEvent_withEvent .done s.event
  rw [afterCommand, afterCommand, hdata, hdone]
  rfl

/-- Settles O42: the two runs, command by command; both commit the checksum of the same entropy and the groups of the
same bits, and record DONE. -/
theorem encodeIsCsumThenPack : Obligations.EncodeIsCsumThenPack := by
  intro s hp hn
  have hok := entropyOk_of_mem s hn
  have hcsum := reaches_afterCommand .csum { s with agenda := [.write 0x008 1, .complete, .write 0x008 2, .complete] }
    _ hp rfl (entropyCheck_of_ok _ hok) (csumCommit_of_ok _ hok)
  have hpack := reaches_afterCommand .pack (afterCommand .csum s [.write 0x008 2, .complete]) [] rfl rfl
    (packCheck_of_ok _ hok rfl) (work_pack_afterCommand_csum s _ hok)
  have hencode := reaches_afterCommand .encode { s with agenda := [.write 0x008 3, .complete] } [] hp rfl
    (entropyCheck_of_ok _ hok) (work_encode _ hok)
  exact ⟨_, _, reaches_add 2 2 _ _ _ hcsum hpack, hencode, rfl, afterCommand_encode_eq s _ []⟩

end Sys2Proof.Machine

/-! PROOFS of the family other, part 5: the hashes of whole blocks (R102, R133), the internal steps of DERIVE (R87), and
what cannot be told apart: the working state (R35), and bytes beyond a length register (R22, R27, R28). -/

namespace Sys2Proof.Machine

/-! ### Hashes of whole blocks -/

/-- A string of one block is absorbed by one compression (R99, R130). -/
theorem absorb_block {w : Nat} (v : Sha2 w) (hw : 0 < blockBytes w) (hv : Vars w) (x : List Byte)
    (hx : x.length = blockBytes w) : absorb v hv x = compress v hv x := by
  have hblocks : blocksOf (blockBytes w) x = [x] := by
    have happend := blocksOf_append (blockBytes w) hw x [] hx
    rw [List.append_nil] at happend
    rw [happend, blocksOf, List.length_nil, Nat.zero_div]
    rfl
  rw [absorb, hblocks]
  rfl

/-- Settles O51: with its padding an entropy of a supported length is one block. -/
theorem entropyIsOneBlock : Obligations.EntropyIsOneBlock := by
  intro e hlen
  have hle : e.length ≤ 32 := by
    simp only [List.mem_cons, List.not_mem_nil, or_false] at hlen
    omega
  have hzeros : paddingZeros 32 e.length = 55 - e.length := by
    show (64 - (e.length + 1 + 8) % 64) % 64 = 55 - e.length
    omega
  have hblock : e ++ padding 32 (0 + e.length) =
      e ++ [0x80] ++ List.replicate (55 - e.length) 0x00 ++ be 8 (8 * e.length) := by
    rw [Nat.zero_add, padding_eq_append, hzeros, List.append_assoc, List.append_assoc, List.append_assoc]
    rfl
  have hsize : (e ++ [0x80] ++ List.replicate (55 - e.length) (0x00 : Byte) ++ be 8 (8 * e.length)).length =
      blockBytes 32 := by
    simp only [List.length_append, List.length_singleton, List.length_replicate, length_be, blockBytes]
    omega
  unfold sha256 hash hashFrom
  rw [hblock, absorb_block sha256Spec (by decide) _ _ hsize]

/-- A hash that begins with a pad block starts from the pad's chaining value (R133). -/
theorem sha512_append_pad (pad m : List Byte) (h : pad.length = 128) :
    sha512 (pad ++ m) = hashFrom sha512Spec (padState pad) 128 m := by
  unfold sha512 hash padState
  exact hashFrom_append sha512Spec (by decide) sha512Spec.init 0 pad m h

/-- Settles O52: both hashes of HMAC begin with a pad block. -/
theorem hmacFromPadStates : Obligations.HmacFromPadStates := by
  intro k m
  have hinner : (ipad (keyBlock k)).length = 128 := by rw [length_ipad, length_keyBlock]
  have houter : (opad (keyBlock k)).length = 128 := by rw [length_opad, length_keyBlock]
  rw [hmac512_eq, sha512_append_pad _ _ houter, sha512_append_pad _ _ hinner]
  unfold hmacFrom
  rfl

/-! ### The internal steps of DERIVE -/

/-- WRK after `n` internal steps of `DERIVE`, for `n` at least 1: the two pad chaining values, `U_n`, the exclusive or of
`U_1` to `U_n`, and the counter. -/
structure DerivedTo (p salt : List Byte) (n : Nat) (k : Working) : Prop where
  inner : k.inner = padState (ipad (keyBlock p))
  outer : k.outer = padState (opad (keyBlock p))
  u : k.u = (kdfAfter p salt n).1
  t : k.t = (kdfAfter p salt n).2
  iter : k.iter.toNat = n

/-- The first internal step computes `U_1` (R133, R134). -/
theorem deriveWork_first (s : State) (k : Working) (h : k.iter = 0) :
    DerivedTo (password s) (salt s) 1 (deriveWork s k) := by
  have hu : hmacFrom (padState (ipad (keyBlock (password s)))) (padState (opad (keyBlock (password s))))
      (salt s ++ be 4 1) = firstU (password s) (salt s) := hmacFromPadStates _ _
  rw [deriveWork, if_pos h]
  refine ⟨rfl, rfl, ?_, ?_, rfl⟩ <;> rw [kdfAfter_one] <;> exact hu

/-- Each further one is one pass of the loop (R134). -/
theorem deriveWork_next (s : State) (k : Working) (n : Nat) (h1 : 1 ≤ n) (hn : n < Config.iter)
    (h : DerivedTo (password s) (salt s) n k) : DerivedTo (password s) (salt s) (n + 1) (deriveWork s k) := by
  have hne : k.iter ≠ 0 := by
    intro h0
    have hiter := h.iter
    rw [h0] at hiter
    exact absurd hiter (by simp; omega)
  have hu : hmacFrom k.inner k.outer k.u = hmac512 (password s) (kdfAfter (password s) (salt s) n).1 := by
    rw [h.inner, h.outer, h.u]
    exact hmacFromPadStates _ _
  have hiter : (k.iter + 1).toNat = n + 1 := by
    unfold Config.iter at hn
    rw [BitVec.toNat_add, h.iter]
    exact Nat.mod_eq_of_lt (by simp; omega)
  rw [deriveWork, if_neg hne, if_pos (h.iter.symm ▸ hn), hu]
  exact ⟨h.inner, h.outer, by rw [kdfAfter_succ _ _ _ h1]; rfl, by rw [kdfAfter_succ _ _ _ h1, h.t]; rfl, hiter⟩

/-- From WRK zero, `n` internal steps compute the first `n` iterates. -/
theorem derivedTo_iterate (s : State) (n : Nat) (h1 : 1 ≤ n) (hn : n ≤ Config.iter) :
    DerivedTo (password s) (salt s) n ((deriveWork s)^[n] Working.zero) := by
  induction n, h1 using Nat.le_induction with
  | base => exact deriveWork_first s Working.zero rfl
  | succ n h1 ih =>
    rw [Function.iterate_succ_apply']
    exact deriveWork_next s _ n h1 hn (ih (Nat.le_of_succ_le hn))

/-- An internal step with `DERIVE` in flight (R87). -/
theorem workStep_derive (s : State) (hp : s.phase = .run) (hc : s.cmd = encode .derive) :
    workStep s = { s with wrk := deriveWork s s.wrk } := by
  have hd : decodeWord s.cmd = .ok .derive := hc ▸ decodeWord_encode .derive
  unfold workStep
  split
  case h_1 hi => cases hd.symm.trans hi
  case h_2 hi => cases hd.symm.trans hi
  case h_3 => rfl
  case h_4 hnone => exact absurd hd (hnone hp)

/-- A step whose turn is an internal step of `DERIVE` (R87). -/
theorem step_work_derive (s : State) (rest : List Turn) (hp : s.phase = .run) (hc : s.cmd = encode .derive)
    (ha : s.agenda = .work :: rest) :
    step s = .next { s with wrk := deriveWork s s.wrk, agenda := rest, reply := none } :=
  (step_cons s .work rest ha).trans (congrArg Host.Outcome.next (workStep_derive (s.atTurn rest) hp hc))

/-- `n` internal steps of `DERIVE` touch WRK alone (R87). -/
theorem reaches_work_derive (s : State) (n : Nat) (h1 : 1 ≤ n) (hp : s.phase = .run) (hc : s.cmd = encode .derive)
    (ha : s.agenda = List.replicate n .work) :
    State.reaches n s { s with wrk := (deriveWork s)^[n] s.wrk, agenda := [], reply := none } := by
  induction n, h1 using Nat.le_induction generalizing s with
  | base => exact ⟨_, step_work_derive s [] hp hc ha, rfl⟩
  | succ n h1 ih =>
    exact ⟨_, step_work_derive s (List.replicate n .work) hp hc ha,
      ih { s with wrk := deriveWork s s.wrk, agenda := List.replicate n .work, reply := none } hp hc rfl⟩

/-- Settles O53: the run touches WRK alone, and WRK then holds the iterates. -/
theorem internalStepsComputeTheSeed : Obligations.InternalStepsComputeTheSeed := by
  intro s n hp hc hwrk h1 hn ha
  have hrun := reaches_work_derive s n h1 hp hc ha
  have hwork := derivedTo_iterate s n h1 hn
  rw [hwrk] at hrun
  refine ⟨_, hrun, rfl, hwork.iter, hwork.u, hwork.t, ?_⟩
  rintro rfl
  unfold pbkdf2
  exact hwork.t

/-! ### The working state cannot be observed -/

/-- A state with another working state. -/
def State.withWrk (s : State) (k : Working) : State := { s with wrk := k }

theorem withWrk_eq (s : State) (k : Working) : s.withWrk k = s.withControl (s.withWrk k) := rfl

section
variable (s : State) (k : Working)

/-- A command's outcome does not depend on WRK: no pre-check, accept or completion reads it (R35). -/
theorem exec_withWrk (i : Instr) :
    outcomeWithoutWork (exec i (s.withWrk k)) = outcomeWithoutWork (exec i s) := by
  cases hp : s.phase with
  | idle =>
    rw [exec_idle i (s.withWrk k) hp, exec_idle i s hp, withWrk_eq, preCheck_withControl]
    cases preCheck i s with
    | some e => rfl
    | none => cases i <;> rfl
  | run =>
    rw [exec_run i (s.withWrk k) hp, exec_run i s hp, withWrk_eq, work_withControl]
    cases hw : work i s with
    | results r =>
      obtain rfl := eq_results_of_work i s r hw
      have hc := sameControl_results i s
      show Host.Outcome.next (finish ((results i s).withControl (s.withWrk k))).withoutWork =
        .next (finish (results i s)).withoutWork
      unfold finish State.withControl State.withWrk
      rw [hc.lastop, hc.event, hc.ie, hc.agenda, hc.reply]
    | assertion => rfl
    | refused => rfl
  | fault =>
    rw [exec_fault i (s.withWrk k) hp, exec_fault i s hp]
    rfl

/-- No read returns anything of WRK (R35). -/
theorem readTarget_withWrk (r : Target) : readTarget (s.withWrk k) r = readTarget s r := by
  cases r <;> rfl

theorem memRead_withWrk (a : Addr) : (memRead a (s.withWrk k)).withoutWork = (memRead a s).withoutWork := by
  cases ht : target a with
  | none =>
    unfold memRead
    rw [ht]
    rfl
  | some r =>
    rw [memRead_of_target a r _ ht, memRead_of_target a r _ ht, readTarget_withWrk]
    rfl

/-- The write of CMD does not depend on WRK. -/
theorem writeCmd_withWrk (v : Word) :
    outcomeWithoutWork (writeCmd v (s.withWrk k)) = outcomeWithoutWork (writeCmd v s) := by
  cases hd : decodeWord v with
  | error e =>
    rw [writeCmd_of_error v _ e hd, writeCmd_of_error v _ e hd]
    rfl
  | ok i => rw [writeCmd_of_ok v _ i hd, writeCmd_of_ok v _ i hd, exec_withWrk]

/-- Nor does a write that needs the phase. -/
theorem writePhased_withWrk (r : Target) (v : Word) (hr : r.phased) :
    outcomeWithoutWork (writePhased r v (s.withWrk k)) = outcomeWithoutWork (writePhased r v s) := by
  cases hp : s.phase with
  | fault =>
    rw [writePhased_fault r v (s.withWrk k) hp, writePhased_fault r v s hp]
    rfl
  | run =>
    rw [writePhased_run r v (s.withWrk k) hp, writePhased_run r v s hp]
    rfl
  | idle =>
    rcases hr with rfl | hr
    · rw [writePhased_idle_cmd v (s.withWrk k) hp, writePhased_idle_cmd v s hp, writeCmd_withWrk]
    · rw [writePhased_idle_input r v (s.withWrk k) hp hr, writePhased_idle_input r v s hp hr]
      cases r <;> rfl

/-- Nor does any write transaction. -/
theorem memWrite_withWrk (a : Addr) (v : Word) :
    outcomeWithoutWork (memWrite a v (s.withWrk k)) = outcomeWithoutWork (memWrite a v s) := by
  cases ht : target a with
  | none =>
    rw [memWrite_of_none a v _ ht, memWrite_of_none a v _ ht]
    rfl
  | some r =>
    cases hro : r.readOnly with
    | true =>
      rw [memWrite_of_readOnly a r v _ ht hro, memWrite_of_readOnly a r v _ ht hro]
      rfl
    | false =>
      by_cases hevent : r = .event
      · subst hevent
        rw [memWrite_of_event a v _ ht, memWrite_of_event a v _ ht]
        rfl
      by_cases hie : r = .ie
      · subst hie
        rw [memWrite_of_ie a v _ ht, memWrite_of_ie a v _ ht]
        rfl
      have hr := (phased_iff r).2 ⟨hro, hevent, hie⟩
      rw [memWrite_of_phased a r v _ ht hr, memWrite_of_phased a r v _ ht hr, writePhased_withWrk s k r v hr]

/-- Nor does the engine's turn: the completion does not read WRK (R84, log entry 6). -/
theorem engineTurn_withWrk :
    outcomeWithoutWork (engineTurn (s.withWrk k)) = outcomeWithoutWork (engineTurn s) := by
  by_cases hp : s.phase = .run
  · cases hd : decodeWord s.cmd with
    | ok i => rw [engineTurn_run (s.withWrk k) i hp hd, engineTurn_run s i hp hd, exec_withWrk]
    | error e =>
      have hs := (engineTurn_eq_illegal_iff s hp).2 ((illegalWord_iff _).2 ⟨e, hd⟩)
      have hk := (engineTurn_eq_illegal_iff (s.withWrk k) hp).2 ((illegalWord_iff _).2 ⟨e, hd⟩)
      rw [hs, hk]
  · rw [engineTurn_not_run (s.withWrk k) hp, engineTurn_not_run s hp]
    rfl

/-- An internal step leaves nothing but WRK. -/
theorem withoutWork_workStep : (workStep s).withoutWork = s.withoutWork := by
  rw [workStep_eq]
  rfl

/-- No turn's outcome depends on WRK. -/
theorem runTurn_withWrk (u : Turn) :
    outcomeWithoutWork (runTurn u (s.withWrk k)) = outcomeWithoutWork (runTurn u s) := by
  cases u with
  | read a => exact congrArg Host.Outcome.next (memRead_withWrk s k a)
  | write a v => exact memWrite_withWrk s k a v
  | complete => exact engineTurn_withWrk s k
  | work =>
    exact congrArg Host.Outcome.next ((withoutWork_workStep (s.withWrk k)).trans (withoutWork_workStep s).symm)
  | reset => rfl

end

/-- Settles O54: neither the engine's turn on an empty agenda nor any turn looks at WRK. -/
theorem workingStateIsUnobservable : Obligations.WorkingStateIsUnobservable := by
  intro s k
  show outcomeWithoutWork (step (s.withWrk k)) = _
  cases ha : s.agenda with
  | nil =>
    rw [step_nil (s.withWrk k) ha, step_nil s ha]
    exact engineTurn_withWrk (s.atTurn []) k
  | cons u rest =>
    rw [step_cons (s.withWrk k) u rest ha, step_cons s u rest ha]
    exact runTurn_withWrk (s.atTurn rest) k u

/-! ### Bytes beyond the lengths change no result -/

/-- A state with other ENT, MN and PP files. -/
def State.withFiles (s : State) (e m p : Memory) : State := { s with ent := e, mn := m, pp := p }

/-- The three files agree with the state's where its length registers look at them (R22, R27, R28). -/
structure State.AgreeOn (s : State) (e m p : Memory) : Prop where
  ent : ∀ n < s.entN.toNat, e.get n = s.ent.get n
  mn : ∀ n < s.mnLen.toNat, m.get n = s.mn.get n
  pp : s.ppPresent = true → ∀ n < s.ppLen.toNat, p.get n = s.pp.get n

section
variable {s : State} {e m p : Memory}

theorem entropy_withFiles (h : s.AgreeOn e m p) : entropy (s.withFiles e m p) = entropy s :=
  Memory.bytes_congr e s.ent _ h.ent

theorem password_withFiles (h : s.AgreeOn e m p) : password (s.withFiles e m p) = password s :=
  Memory.bytes_congr m s.mn _ h.mn

theorem salt_withFiles (h : s.AgreeOn e m p) : salt (s.withFiles e m p) = salt s := by
  have hpass : passphrase (s.withFiles e m p) = passphrase s := by
    show (if s.ppPresent then p.bytes s.ppLen.toNat else []) = passphrase s
    unfold passphrase
    split_ifs with hp
    · exact Memory.bytes_congr p s.pp _ (h.pp hp)
    · rfl
  rw [salt, hpass, salt]

/-- The bit string has the entropy's bytes below `ENT_N` alone (R111). -/
theorem flatBits_withFiles (h : s.AgreeOn e m p) : flatBits (s.withFiles e m p) = flatBits s := by
  have hbits : (List.range (8 * s.entN.toNat)).map (msbBit e.get) =
      (List.range (8 * s.entN.toNat)).map (msbBit s.ent.get) := by
    refine List.map_congr_left fun i hi => ?_
    have hi8 := List.mem_range.1 hi
    unfold msbBit
    rw [h.ent (i / 8) (by omega)]
  exact congrArg (· ++ _) hbits

/-- The checksum of the same bytes is the same. -/
theorem checksumResults_withFiles (h : s.AgreeOn e m p) :
    checksumResults (s.withFiles e m p) = (checksumResults s).withFiles e m p := by
  rw [checksumResults, entropy_withFiles h]
  rfl

/-- Two states that agree but for the three files. -/
def State.SameButFiles (t u : State) : Prop := u = t.withFiles u.ent u.mn u.pp

/-- A command's results are the same but for the three files. -/
theorem results_withFiles (i : Instr) (h : s.AgreeOn e m p) :
    (results i s).SameButFiles (results i (s.withFiles e m p)) := by
  cases i with
  | nop => rfl
  | csum =>
    show (checksumResults s).SameButFiles (checksumResults (s.withFiles e m p))
    rw [checksumResults_withFiles h]
    rfl
  | pack =>
    show (indexResults _ s).SameButFiles (indexResults (groups (flatBits (s.withFiles e m p))) _)
    rw [flatBits_withFiles h]
    rfl
  | encode =>
    have hc : (checksumResults s).AgreeOn e m p := ⟨h.ent, h.mn, h.pp⟩
    show (indexResults _ (checksumResults s)).SameButFiles
      (indexResults (groups (flatBits (checksumResults (s.withFiles e m p)))) (checksumResults (s.withFiles e m p)))
    rw [checksumResults_withFiles h, flatBits_withFiles hc]
    rfl
  | derive =>
    show (seedResults s).SameButFiles (seedResults (s.withFiles e m p))
    rw [seedResults, seedResults, password_withFiles h, salt_withFiles h]
    rfl
  | clear g =>
    show (clearGroups g s).SameButFiles (clearGroups g (s.withFiles e m p))
    rw [clearGroups_eq, clearGroups_eq]
    rfl

end

/-- Settles O55: the pre-checks and the accept do not look at the files, and the results look at them below the lengths
alone. -/
theorem ignoredBytesChangeNoResult : Obligations.IgnoredBytesChangeNoResult := by
  intro s e m p i t hent hmn hpp h
  have hagree : s.AgreeOn e m p := ⟨hent, hmn, hpp⟩
  show ∃ u, exec i (s.withFiles e m p) = .next u ∧ t.SameButFiles u
  cases hp : s.phase with
  | idle =>
    rw [exec_idle i s hp] at h
    cases h
    refine ⟨_, exec_idle i (s.withFiles e m p) hp, ?_⟩
    have hcheck : preCheck i (s.withFiles e m p) = preCheck i s := by cases i <;> rfl
    rw [hcheck]
    cases preCheck i s with
    | some d => rfl
    | none => cases i <;> rfl
  | run =>
    have hwork := work_of_sameSizes i s (s.withFiles e m p) ⟨rfl, rfl, rfl, rfl, rfl⟩
    rw [exec_run i s hp] at h
    rw [exec_run i (s.withFiles e m p) hp, hwork]
    cases hw : work i s with
    | results r =>
      obtain rfl := eq_results_of_work i s r hw
      rw [hw] at h
      cases h
      exact ⟨_, rfl, congrArg finish (results_withFiles i hagree)⟩
    | assertion =>
      rw [hw] at h
      cases h
      exact ⟨_, rfl, rfl⟩
    | refused =>
      rw [hw] at h
      cases h
  | fault =>
    rw [exec_fault i s hp] at h
    cases h
    exact ⟨_, exec_fault i (s.withFiles e m p) hp, rfl⟩

end Sys2Proof.Machine
